-- ==== Sys2Proof/Word.lean ====
section
/-! DEFINITION. The data the spec names without interpreting it: bytes, byte sequences and bit strings
(00_scope.md R6, R7). -/

namespace Sys2Proof

/-- A byte is 8 bits (R7). -/
abbrev Byte := BitVec 8

/-- A byte sequence: `B[0]` is the head (R7). -/
abbrev Bytes := List Byte

/-- A bit string: the head is its leftmost, most significant bit, position 0 (R6). -/
abbrev Bits := List Bool

end Sys2Proof
end

