-- ==== Sys2Proof/Machine/BitString.lean ====
section
/-! DEFINITION. Bit strings, byte sequences and the numbers they spell (00_scope.md R6, R7; 20_memory.md R50, R51), and the
three functions of the bit utility (41_bitutil.md R120, R123, R125). -/

namespace Sys2Proof.Machine

/-- `val b`: the unsigned integer `b` spells, first bit most significant; the empty string spells 0 (R6). -/
def val (b : Bits) : Nat := b.foldl (fun a x => 2 * a + x.toNat) 0

/-- `bstr_n v`: the bit string of exactly `n` bits that spells `v` when `v < 2^n` (R6). -/
def bstr (n v : Nat) : Bits := (List.range n).map fun i => v.testBit (n - 1 - i)

/-- `0^n` (R6). -/
def zeros (n : Nat) : Bits := List.replicate n false

/-- `bits B`: the bytes in ascending offset, bit 7 of each first (R7, 20_memory.md R51). -/
def bits (B : Bytes) : Bits := B.flatMap fun x => bstr 8 x.toNat

/-- `bytes_of b`: the byte sequence whose bit string is `b`, for `b` of a whole number of bytes (R7). -/
def bytesOf (b : Bits) : Bytes := (List.range (b.length / 8)).map fun i => BitVec.ofNat 8 (val ((b.drop (8 * i)).take 8))

/-- `be16 v`: 2 bytes, most significant first (R7, 20_memory.md R50). -/
def be16 (v : BitVec 16) : Bytes := [v.extractLsb' 8 8, v.extractLsb' 0 8]

/-- `be32 v`: 4 bytes, most significant first (R7, 20_memory.md R50). -/
def be32 (v : BitVec 32) : Bytes := [v.extractLsb' 24 8, v.extractLsb' 16 8, v.extractLsb' 8 8, v.extractLsb' 0 8]

/-- `unbe B = val (bits B)` (R7). -/
def unbe (B : Bytes) : Nat := val (bits B)

/-- `zext_16` of a state bit (00_scope.md R7, 30_encoding.md R73). -/
def zext16 (b : BitVec 1) : BitVec 16 := b.setWidth 16

/-- `mbl v`: the least `n` with `v < 2^n`; `mbl 0 = 0` (41_bitutil.md R120). -/
def mbl (v : Nat) : Nat := if v = 0 then 0 else v.log2 + 1

/-- `leftpad v w`: `bstr_w v`, or `none` (InvalidWidth) when `w < mbl v` (41_bitutil.md R120). -/
def leftpad (v w : Nat) : Option Bits := if w < mbl v then none else some (bstr w v)

/-- The bytes that carry a bit string right-aligned, unused leading bits zero (41_bitutil.md R121). -/
def rightAligned (s : Bits) : Bytes := bytesOf (zeros ((8 - s.length % 8) % 8) ++ s)

/-- `flip b pos`: `b` with the bit at `pos` complemented (41_bitutil.md R123). -/
def flipAt (b : Bits) (pos : Nat) : Bits := b.modify pos (!·)

/-- `diff a b`: 1 exactly at the positions where `a` and `b` differ (41_bitutil.md R125). -/
def diffMask (a b : Bits) : Bits := List.zipWith (fun x y => x ^^ y) a b

end Sys2Proof.Machine
end

