-- ==== Sys2Proof/Syntax.lean ====
section
/-! DEFINITION. The operations of the block: one constructor of `Instr` for each of the 18 rows of
spec/opcode_table.json (30_encoding.md R81, R85), and the names their operands use. -/

namespace Sys2Proof

/-- The two frame output ports (30_encoding.md R70): the sender half transmits on `txs`, the receiver half on `txr`. -/
inductive TxPort
  | txs
  | txr
deriving DecidableEq, Repr

/-- The input ports an operation can arrive on (30_encoding.md R70). `RND` carries draws and no operation; `STATUS` is an output. -/
inductive InPort
  | cmd
  | rxs
  | rxr
  | tick
deriving DecidableEq, Repr

/-- The operand `role` of DEC: 0 = sender side, the frame is an ACK packet; 1 = receiver side, the frame is a
data packet (30_encoding.md R80). -/
inductive Role
  | sender
  | receiver
deriving DecidableEq, Repr

/-- The operations. A byte-sequence operand takes all remaining bytes of the presented item (30_encoding.md R80). -/
inductive Instr
  /-- CKGEN, opcode 0x01, format B (40_checksum.md R108). -/
  | ckgen (data : Bytes)
  /-- CKVFY, opcode 0x02, format B (40_checksum.md R109). -/
  | ckvfy (data : Bytes)
  /-- LPAD, opcode 0x03, format L (41_bitutil.md R121). -/
  | lpad (width : BitVec 16) (value : Bytes)
  /-- FLIP, opcode 0x04, format B (41_bitutil.md R124). -/
  | flip (data : Bytes)
  /-- DIFF, opcode 0x05, format B: the two strings are the halves of `data` (41_bitutil.md R126). -/
  | diff (data : Bytes)
  /-- ENCS, opcode 0x06, format N (42_codec.md R143). -/
  | encs (number : BitVec 16) (checksum : BitVec 32) (payload : Bytes)
  /-- ENCR, opcode 0x07, format N (42_codec.md R144). -/
  | encr (number : BitVec 16) (checksum : BitVec 32) (payload : Bytes)
  /-- DEC, opcode 0x08, format R (42_codec.md R147). -/
  | dec (role : Role) (frame : Bytes)
  /-- SEND, opcode 0x10, format B (45_sender.md R191). -/
  | send (payload : Bytes)
  /-- RXACK, opcode 0x11, format B, port RXS (45_sender.md R193). -/
  | rxack (frame : Bytes)
  /-- RXPKT, opcode 0x12, format B, port RXR (46_receiver.md R221). -/
  | rxpkt (frame : Bytes)
  /-- TICK, opcode 0x13, format Z, port TICK (43_timer.md R164). -/
  | tick
  /-- SHUTDOWN, opcode 0x14, format Z (47_session.md R240). -/
  | shutdown
  /-- TEXPD, opcode 0x15, format Z (43_timer.md R166). -/
  | texpd
  /-- TSTART, internal: no encoding, invoked by SEND and TMO (43_timer.md R162). -/
  | tstart (d : BitVec 32)
  /-- TCANCEL, internal: no encoding, invoked by RXACK and SHUTDOWN (43_timer.md R163). -/
  | tcancel
  /-- CHSEND, internal: no encoding, invoked by SEND, TMO and RXPKT (44_channel.md R180). -/
  | chsend (port : TxPort) (frame : Bytes)
  /-- TMO, internal: no encoding, the step of the sender control loop (45_sender.md R196). -/
  | tmo
deriving DecidableEq, Repr

end Sys2Proof
end

