-- ==== Sys2Proof/Machine/Operands.lean ====
section
/-! DEFINITION. What the operands of an operation may be (30_encoding.md R83, R84), the port it arrives on and its opcode
(R81). -/

namespace Sys2Proof.Machine

/-- `n` is within a limit; `none` is unbounded (00_scope.md R5). -/
def within (n : Nat) (limit : Option Nat) : Bool :=
  match limit with
  | none => true
  | some m => n ≤ m

/-- `MAX_FRAME = MAX_PAYLOAD + 6` (00_scope.md R5). -/
def maxFrame (maxPayload : Option Nat) : Option Nat := maxPayload.map (· + 6)

/-- The length limits of 30_encoding.md R84, for an instance with the given `MAX_PAYLOAD`. LPAD's limit has the same
value for every bound; with `MAX_PAYLOAD` unbounded all limits on byte sequences vanish (R84), LPAD's among them. The width
of LPAD is at most 65535 by its type. -/
def withinLimits (maxPayload : Option Nat) (i : Instr) : Bool :=
  match i with
  | .ckgen data => within data.length maxPayload
  | .ckvfy data => within data.length (maxFrame maxPayload)
  | .lpad _ value => within value.length (maxPayload.map fun _ => 8192)
  | .flip data => within data.length (maxFrame maxPayload)
  | .diff data => within data.length ((maxFrame maxPayload).map (2 * ·))
  | .encs _ _ payload => within (payload.length + 6) (maxFrame maxPayload)
  | .encr _ _ payload => within (payload.length + 6) (maxFrame maxPayload)
  | .dec _ frame => within frame.length (maxFrame maxPayload)
  | .send payload => within payload.length maxPayload
  | .rxack frame => within frame.length (maxFrame maxPayload)
  | .rxpkt frame => within frame.length (maxFrame maxPayload)
  | .tick => true
  | .shutdown => true
  | .texpd => true
  | .tstart _ => true
  | .tcancel => true
  | .chsend _ _ => true
  | .tmo => true

/-- The shape an operand must have besides its length limit: DIFF's data is even (30_encoding.md R83), and CHSEND is
given a frame of at least 6 bytes (44_channel.md R180). -/
def shapeOk (i : Instr) : Bool :=
  match i with
  | .diff data => data.length % 2 == 0
  | .chsend _ frame => 6 ≤ frame.length
  | .ckgen _ => true
  | .ckvfy _ => true
  | .lpad _ _ => true
  | .flip _ => true
  | .encs _ _ _ => true
  | .encr _ _ _ => true
  | .dec _ _ => true
  | .send _ => true
  | .rxack _ => true
  | .rxpkt _ => true
  | .tick => true
  | .shutdown => true
  | .texpd => true
  | .tstart _ => true
  | .tcancel => true
  | .tmo => true

/-- The operand check that comes before every other check of an operation (30_encoding.md R83, R84). -/
def operandsOk (maxPayload : Option Nat) (i : Instr) : Bool := shapeOk i && withinLimits maxPayload i

/-- The opcode map (30_encoding.md R81); an internal operation has none (R85). -/
def opcode (i : Instr) : Option Byte :=
  match i with
  | .ckgen _ => some 0x01
  | .ckvfy _ => some 0x02
  | .lpad _ _ => some 0x03
  | .flip _ => some 0x04
  | .diff _ => some 0x05
  | .encs _ _ _ => some 0x06
  | .encr _ _ _ => some 0x07
  | .dec _ _ => some 0x08
  | .send _ => some 0x10
  | .rxack _ => some 0x11
  | .rxpkt _ => some 0x12
  | .tick => some 0x13
  | .shutdown => some 0x14
  | .texpd => some 0x15
  | .tstart _ => none
  | .tcancel => none
  | .chsend _ _ => none
  | .tmo => none

/-- The port of an operation (30_encoding.md R81); an internal operation can be invoked from none (R85). -/
def portOf (i : Instr) : Option InPort :=
  match i with
  | .ckgen _ => some .cmd
  | .ckvfy _ => some .cmd
  | .lpad _ _ => some .cmd
  | .flip _ => some .cmd
  | .diff _ => some .cmd
  | .encs _ _ _ => some .cmd
  | .encr _ _ _ => some .cmd
  | .dec _ _ => some .cmd
  | .send _ => some .cmd
  | .rxack _ => some .rxs
  | .rxpkt _ => some .rxr
  | .tick => some .tick
  | .shutdown => some .cmd
  | .texpd => some .cmd
  | .tstart _ => none
  | .tcancel => none
  | .chsend _ _ => none
  | .tmo => none

/-- The halves of DIFF's data: its first and its last `n` bytes, `n` half of its length (41_bitutil.md R126). -/
def halves (data : Bytes) : Bytes × Bytes := (data.take (data.length / 2), data.drop (data.length / 2))

/-- The number that `role` is written as (30_encoding.md R80). -/
def roleByte (r : Role) : Byte :=
  match r with
  | .sender => 0
  | .receiver => 1

/-- The role an operand byte names; every other value is malformed (30_encoding.md R83). -/
def roleOf (b : Byte) : Option Role :=
  if b = 0 then some .sender else if b = 1 then some .receiver else none

end Sys2Proof.Machine
end

