-- ==== Sys2Proof/WellFormed.lean ====
section
/-! DEFINITION. Which terms of `Instr` are operations an instance can be given. -/

namespace Sys2Proof

/-- `i` is well formed for an instance with the given `MAX_PAYLOAD`: its operands have the shape and the lengths of
30_encoding.md R83 and R84 (for CHSEND: of 44_channel.md R180). -/
def wellFormed (maxPayload : Option Nat) (i : Instr) : Bool :=
  Machine.shapeOk i && Machine.withinLimits maxPayload i

/-- `i` is a host operation: it has an opcode (30_encoding.md R81); the four internal operations have none (R85). -/
def isHostOp (i : Instr) : Bool := (Machine.opcode i).isSome

end Sys2Proof
end

