-- ==== Sys2Proof/Decode.lean ====
section
/-! DEFINITION. The operation encoding of 30_encoding.md R80 to R83: a decoder, total on byte sequences, that rejects by
name, and the encoder. The length limits of R84 depend on the instance and are checked where the operation is run
(`Machine.operandsOk`). -/

namespace Sys2Proof

/-- Why a byte sequence is no operation (30_encoding.md R83). All are answered IllegalCommand. -/
inductive DecodeError
  /-- An empty operation: no opcode byte. -/
  | emptyOperation
  /-- An opcode that R81 does not list. -/
  | reservedOpcode (op : Byte)
  /-- A format-Z operation with extra bytes. -/
  | extraBytes
  /-- A format-L, N or R operation shorter than its fixed part. -/
  | tooShort
  /-- A format-R operation whose role is not 0 or 1. -/
  | badRole
  /-- A DIFF whose data has odd length. -/
  | oddLength
deriving DecidableEq, Repr

/-- What the decoder answers. -/
inductive Decoded
  | op (i : Instr)
  | illegal (e : DecodeError)
deriving DecidableEq, Repr

/-- Format Z: no operand (R80). -/
def decodeZ (i : Instr) (rest : Bytes) : Decoded :=
  match rest with
  | [] => .op i
  | _ :: _ => .illegal .extraBytes

/-- Format L: width as be16, then the value (R80). -/
def decodeL (f : BitVec 16 → Bytes → Instr) (rest : Bytes) : Decoded :=
  match rest with
  | w1 :: w0 :: value => .op (f (w1 ++ w0) value)
  | _ => .illegal .tooShort

/-- Format N: number as be16, checksum as be32, then the payload (R80). -/
def decodeN (f : BitVec 16 → BitVec 32 → Bytes → Instr) (rest : Bytes) : Decoded :=
  match rest with
  | n1 :: n0 :: c3 :: c2 :: c1 :: c0 :: payload => .op (f (n1 ++ n0) (c3 ++ c2 ++ c1 ++ c0) payload)
  | _ => .illegal .tooShort

/-- Format R: role, then the frame (R80). -/
def decodeR (f : Role → Bytes → Instr) (rest : Bytes) : Decoded :=
  match rest with
  | r :: frame =>
    match Machine.roleOf r with
    | some role => .op (f role frame)
    | none => .illegal .badRole
  | [] => .illegal .tooShort

/-- DIFF is of format B and its data has even length (R80, R83). -/
def decodeDiff (rest : Bytes) : Decoded :=
  if rest.length % 2 = 0 then .op (.diff rest) else .illegal .oddLength

/-- The operation a presented byte sequence is (R80, R81, R83). -/
def decode (item : Bytes) : Decoded :=
  match item with
  | [] => .illegal .emptyOperation
  | op :: rest =>
    if op = 0x01 then .op (.ckgen rest)
    else if op = 0x02 then .op (.ckvfy rest)
    else if op = 0x03 then decodeL .lpad rest
    else if op = 0x04 then .op (.flip rest)
    else if op = 0x05 then decodeDiff rest
    else if op = 0x06 then decodeN .encs rest
    else if op = 0x07 then decodeN .encr rest
    else if op = 0x08 then decodeR .dec rest
    else if op = 0x10 then .op (.send rest)
    else if op = 0x11 then .op (.rxack rest)
    else if op = 0x12 then .op (.rxpkt rest)
    else if op = 0x13 then decodeZ .tick rest
    else if op = 0x14 then decodeZ .shutdown rest
    else if op = 0x15 then decodeZ .texpd rest
    else .illegal (.reservedOpcode op)

/-- The byte sequence of an operation (R80, R81); an internal operation has no encoding (R85). -/
def encode (i : Instr) : Option Bytes :=
  match i with
  | .ckgen data => some (0x01 :: data)
  | .ckvfy data => some (0x02 :: data)
  | .lpad width value => some (0x03 :: (Machine.be16 width ++ value))
  | .flip data => some (0x04 :: data)
  | .diff data => some (0x05 :: data)
  | .encs number checksum payload => some (0x06 :: (Machine.be16 number ++ Machine.be32 checksum ++ payload))
  | .encr number checksum payload => some (0x07 :: (Machine.be16 number ++ Machine.be32 checksum ++ payload))
  | .dec role frame => some (0x08 :: Machine.roleByte role :: frame)
  | .send payload => some (0x10 :: payload)
  | .rxack frame => some (0x11 :: frame)
  | .rxpkt frame => some (0x12 :: frame)
  | .tick => some [0x13]
  | .shutdown => some [0x14]
  | .texpd => some [0x15]
  | .tstart _ => none
  | .tcancel => none
  | .chsend _ _ => none
  | .tmo => none

/-- The fewest bytes an operation with this opcode has (R83). -/
def minLength (op : Byte) : Nat :=
  if op = 0x03 then 3
  else if op = 0x06 then 7
  else if op = 0x07 then 7
  else if op = 0x08 then 2
  else 1

/-- The item a table word stands for: its bytes, bits 7..0 of the word first, then zero bytes up to the fewest the opcode
needs (R80; log 20). -/
def tableItem (nbits w : Nat) : Bytes :=
  let listed : Bytes := (List.range (nbits / 8)).map fun i => BitVec.ofNat 8 (w >>> (8 * i))
  listed ++ List.replicate (minLength (listed.headD 0) - listed.length) 0

/-- The operation the decoder reads from a table word. -/
def decodeTableWord (nbits w : Nat) : Option Instr :=
  match decode (tableItem nbits w) with
  | .op i => some i
  | .illegal _ => none

/-- The port the table gives the item's opcode; CMD for an item that is no operation (R81). -/
def tablePort (item : Bytes) : InPort :=
  match decode item with
  | .op i => (Machine.portOf i).getD .cmd
  | .illegal _ => .cmd

end Sys2Proof
end

