-- ==== Sys2Proof/Machine/Engine.lean ====
section
/-! DEFINITION. The pure functions of the checksum engine (40_checksum.md R100 to R106) and of the packet codec
(42_codec.md R142, R145). `k` is a block size in bytes and `W = 8*k` the block width in bits. -/

namespace Sys2Proof.Machine

/-- How many zero bits go before a string of length `L` to fill whole blocks (R100). -/
def padLength (L W : Nat) : Nat := (W - L % W) % W

/-- `blocks(b, W)`: `b` padded on the left with zero bits and cut into `W`-bit unsigned integers, most significant
block first (R100). -/
def blocks (b : Bits) (W : Nat) : List Nat :=
  let b' := zeros (padLength b.length W) ++ b
  (List.range (b'.length / W)).map fun i => val ((b'.drop (i * W)).take W)

/-- `T(b, W)`: the sum of the blocks as unbounded natural numbers (R101). -/
def blockSum (b : Bits) (W : Nat) : Nat := (blocks b W).sum

/-- The passes of `fold`, at most `fuel` of them. -/
def foldPasses (W : Nat) : Nat → Nat → Nat
  | 0, T => T
  | fuel + 1, T => if 2 ^ W ≤ T then foldPasses W fuel (T % 2 ^ W + T / 2 ^ W) else T

/-- `fold(T, W)`: end-around carry until the sum fits in one block (R102). A pass makes `T` smaller, so `T` passes are
enough for every `W` above 0. -/
def foldSum (T W : Nat) : Nat := foldPasses W T T

/-- `sum1c(b, W)`: the folded sum (R102). -/
def sum1c (b : Bits) (W : Nat) : Nat := foldSum (blockSum b W) W

/-- `gen_raw(b, k)`: the complement of the folded sum on `W` bits (R103). -/
def genRaw (b : Bits) (k : Nat) : Nat := (2 ^ (8 * k) - 1) - sum1c b (8 * k)

/-- `vfy_raw(b, k)`: the folded sum is all ones (R104). -/
def vfyRaw (b : Bits) (k : Nat) : Bool := sum1c b (8 * k) == 2 ^ (8 * k) - 1

/-- `pkt_ck(P)` for block size `k`: the checksum of the payload and the 32-bit zero field, zero-extended to
32 bits (R105). -/
def pktCk (k : Nat) (P : Bytes) : BitVec 32 := BitVec.ofNat 32 (genRaw (bits P ++ zeros 32) k)

/-- `pkt_ok(c, P)` for block size `k`: payload and received checksum sum to all ones (R106). -/
def pktOk (k : Nat) (c : BitVec 32) (P : Bytes) : Bool := vfyRaw (bits P ++ bstr 32 c.toNat) k

/-- `enc(number, checksum, payload)` (42_codec.md R142, 30_encoding.md R72). -/
def enc (number : BitVec 16) (checksum : BitVec 32) (payload : Bytes) : Bytes := be16 number ++ be32 checksum ++ payload

/-- `dec(frame)`: `none` (MalformedPacket) below 6 bytes, else number, checksum and payload
(42_codec.md R145, 30_encoding.md R76). -/
def dec (frame : Bytes) : Option (BitVec 16 × BitVec 32 × Bytes) :=
  if frame.length < 6 then none
  else some (BitVec.ofNat 16 (unbe (frame.take 2)), BitVec.ofNat 32 (unbe ((frame.drop 2).take 4)), frame.drop 6)

end Sys2Proof.Machine
end

