-- ==== Sys2Proof/Config.lean ====
section
/-! DEFINITION. What one instance fixes (00_scope.md R5), and the values the spec leaves free. -/

namespace Sys2Proof

/-- The parameters of one instance (00_scope.md R5), constants for its whole life (70_reset_and_hazards.md R294).
`maxPayload = none` is "unbounded". -/
structure Params where
  k : BitVec 3
  timeout : BitVec 32
  maxPayload : Option Nat
  ackPayload : Bytes
  testEn : Bool
  lossThr : BitVec 16
  corrThr : BitVec 16
deriving DecidableEq, Repr

/-- `TIMEOUT` is OPEN (00_scope.md R5, 92_eei_decisions.md D7): no value is chosen (log 3). -/
opaque Config.timeout : BitVec 32

/-- The loss draw `u` where nothing was presented on port RND (00_scope.md R10): a free value for each use (log 2). -/
opaque Config.freeU : Nat → BitVec 16

/-- The corruption draw `v` where nothing was presented on port RND (00_scope.md R10; log 2). -/
opaque Config.freeV : Nat → BitVec 16

/-- The flip position where nothing was presented on port RND (00_scope.md R10; log 2). -/
opaque Config.freePos : Nat → Nat

/-- What a byte of `LAST` holds that nothing has written, by the counter `fresh` and the address
(10_state.md R26, 93_implementation_defined.md U1 and U2: any value; log 6). -/
opaque Config.freeLast : Nat → Nat → Byte

/-- The parameters of the instance that `State.reset` stands for: the defaults of 00_scope.md R5, `TIMEOUT` left free
(log 3), `MAX_PAYLOAD` unbounded (log 4). -/
def Config.params : Params :=
  { k := 4, timeout := Config.timeout, maxPayload := none, ackPayload := [], testEn := false,
    lossThr := 65535, corrThr := 0 }

end Sys2Proof
end

