-- ==== Sys2Proof/Machine/State.lean ====
section
/-! DEFINITION. The state of one endpoint (10_state.md R20, R33, R40), its outputs and inputs as data, the reasons a step
can stop, and the machine right after reset. -/

namespace Sys2Proof.Machine

/-- `SS.phase` (10_state.md R22): bit value 0 = AwaitingCall, 1 = AwaitingAck. -/
inductive Phase
  | awaitingCall
  | awaitingAck
deriving DecidableEq, Repr

/-- `SS`: the phase and the sequence bit (10_state.md R22). -/
structure SenderState where
  phase : Phase
  bit : BitVec 1
deriving DecidableEq, Repr

/-- `TS` (10_state.md R24): bit values 0, 1, 2, 3 in this order. -/
inductive TimerState
  | idle
  | running
  | expired
  | cancelled
deriving DecidableEq, Repr

/-- The status codes of a response (60_exceptions.md R251). -/
inductive Status
  | ok
  | malformedPacket
  | checksumMismatch
  | protocolViolation
  | invalidWidth
  | illegalCommand
  | halted
deriving DecidableEq, Repr

/-- The outcome of CHSEND (44_channel.md R180). -/
inductive ChOutcome
  | delivered
  | lost
  | corrupted
deriving DecidableEq, Repr

/-- One output event (00_scope.md R8, 10_state.md R35). -/
inductive Output
  /-- A frame presented on TXS or TXR. -/
  | emit (port : TxPort) (frame : Bytes)
  /-- A payload presented on APP. -/
  | deliver (payload : Bytes)
  /-- A response on RSP: the status, then the result bytes (30_encoding.md R82). -/
  | respond (status : Status) (result : Bytes)
  /-- A channel outcome that goes to the history only, because its operation has no response (45_sender.md R196). -/
  | outcome (o : ChOutcome)
deriving DecidableEq, Repr

/-- One presentation on port RND: the three draws of one operation (00_scope.md R10; log 2). -/
structure Draws where
  u : BitVec 16
  v : BitVec 16
  pos : Nat
deriving DecidableEq, Repr

/-- What moves next (log 1): the schedule of 60_exceptions.md R262 with what the outside presents. -/
inductive Stimulus
  /-- An agent presents an operation, its opcode byte first, on an input port (30_encoding.md R70, R80). -/
  | present (port : InPort) (item : Bytes)
  /-- The sender control loop has its turn: TMO is taken if it is enabled (45_sender.md R196). -/
  | controlLoop
  /-- The reset input is asserted (70_reset_and_hazards.md R290). -/
  | resetInput
deriving DecidableEq, Repr

/-- The buffer `LAST` as (address, byte) pairs, addresses strictly rising; an address that is not listed holds no value
the spec gives (10_state.md R26; log 6). -/
abbrev Memory := List Host.Cell

/-- One endpoint. The fields down to `ackPayload` are the spec's; the last four are the model's own (INVENTORY.md). -/
structure State where
  /-- `SS` (10_state.md R22). -/
  ss : SenderState
  /-- `RS`, the expected bit (10_state.md R23). -/
  rs : BitVec 1
  /-- `TS` (10_state.md R24). -/
  ts : TimerState
  /-- `CNT` (10_state.md R25). -/
  cnt : BitVec 32
  /-- `LAST` (10_state.md R26). -/
  last : Memory
  /-- `LAST_LEN` (10_state.md R26). -/
  lastLen : Nat
  /-- `LAST_VALID` (10_state.md R26). -/
  lastValid : Bool
  /-- `ERR.PV` (10_state.md R27). -/
  errPv : Bool
  /-- `HALT` (10_state.md R28). -/
  halt : Bool
  /-- `CFG_K` (10_state.md R33). -/
  cfgK : BitVec 3
  /-- `CFG_TIMEOUT` (10_state.md R33). -/
  cfgTimeout : BitVec 32
  /-- `CFG_LOSS` (10_state.md R33). -/
  cfgLoss : BitVec 16
  /-- `CFG_CORR` (10_state.md R33). -/
  cfgCorr : BitVec 16
  /-- `CFG_TEST` (10_state.md R33). -/
  cfgTest : Bool
  /-- `MAX_PAYLOAD`, a structural constant; `none` is unbounded (10_state.md R33, 00_scope.md R5). -/
  maxPayload : Option Nat
  /-- `ACK_PAYLOAD`, the read-only store (20_memory.md R53 (c), 10_state.md R33). -/
  ackPayload : Bytes
  /-- The output history, oldest first (10_state.md R35). The model's own record. -/
  out : List Output
  /-- What moves next, in order (log 1). The model's own. -/
  stimuli : List Stimulus
  /-- The draws waiting on port RND, one triple for each operation that draws (log 2). The model's own. -/
  rnd : List Draws
  /-- Counter that makes free values fresh (log 2, log 6). The model's own. -/
  fresh : Nat
deriving DecidableEq, Repr

/-- What port STATUS presents (10_state.md R30): the packed byte, and beside it the registers of R20 at their own widths,
the contents of `LAST` among them (60_exceptions.md R275; log 12). -/
structure StatusView where
  packed : Byte
  cnt : BitVec 32
  lastLen : Nat
  /-- The contents of `LAST`: its written bytes by address; the others hold no specified value (10_state.md R26). -/
  last : Memory
  cfgK : BitVec 3
  cfgTimeout : BitVec 32
  cfgLoss : BitVec 16
  cfgCorr : BitVec 16
  cfgTest : Bool
deriving DecidableEq, Repr

/-- Why a step can stop with a fault. The spec has none (93_implementation_defined.md, end of part 2). -/
inductive Fault
  /-- Raised by TMO when `LAST_LEN` is above `MAX_FRAME`, a value outside the register's range (10_state.md R26), so
  that the read would leave the buffer, which 20_memory.md R53 says never occurs. Safe: the model stops (log 17). -/
  | lastBeyondBuffer
deriving DecidableEq, Repr

/-- Why a step can be refused. -/
inductive Refusal
  /-- Raised by an arm of `exec` whose instruction has no meaning yet; no arm is in that case. Safe: the model stops. -/
  | notModelled (mnemonic : String)
deriving DecidableEq, Repr

/-- What a step answers. -/
abbrev Result := Host.Outcome State Fault Refusal

/-- The values of 10_state.md R40 for an instance with parameters `p`. -/
def State.resetWith (p : Params) : State :=
  { ss := ⟨.awaitingCall, 0⟩, rs := 0, ts := .idle, cnt := 0,
    last := [], lastLen := 0, lastValid := false, errPv := false, halt := false,
    cfgK := p.k, cfgTimeout := p.timeout, cfgLoss := p.lossThr, cfgCorr := p.corrThr, cfgTest := p.testEn,
    maxPayload := p.maxPayload, ackPayload := p.ackPayload,
    out := [], stimuli := [], rnd := [], fresh := 0 }

/-- The machine right after reset (10_state.md R40), with the parameters of `Config.params` (log 5). -/
def State.reset : State := State.resetWith Config.params

/-- The instance parameters a state carries: the configuration registers hold them for the life of the instance
(10_state.md R33, 70_reset_and_hazards.md R294). -/
def State.params (s : State) : Params :=
  { k := s.cfgK, timeout := s.cfgTimeout, maxPayload := s.maxPayload, ackPayload := s.ackPayload,
    testEn := s.cfgTest, lossThr := s.cfgLoss, corrThr := s.cfgCorr }

end Sys2Proof.Machine
end

