-- ==== Sys2Proof/Machine/Flags.lean ====
section
/-! DEFINITION. The flag-like bits and the codes of the block: `hasExpired` (10_state.md R29), the guard of TMO
(45_sender.md R196), the STATUS port (10_state.md R30), the status, outcome and disposition bytes of responses
(30_encoding.md R82, 60_exceptions.md R251). There are no arithmetic condition codes (10_state.md R29). -/

namespace Sys2Proof.Machine

/-- `hasExpired` is the predicate `TS = Expired` (10_state.md R24, 43_timer.md R166). -/
def hasExpired (s : State) : Bool := s.ts == .expired

/-- TMO is enabled exactly when `HALT = 0`, `SS.phase = AwaitingAck` and `TS = Expired` (45_sender.md R196). -/
def tmoEnabled (s : State) : Bool := !s.halt && s.ss.phase == .awaitingAck && hasExpired s

/-- `SS[1]` (10_state.md R22). -/
def phaseBit (p : Phase) : BitVec 1 :=
  match p with
  | .awaitingCall => 0
  | .awaitingAck => 1

/-- The two bits of `TS` (10_state.md R24). -/
def timerBits (t : TimerState) : BitVec 2 :=
  match t with
  | .idle => 0
  | .running => 1
  | .expired => 2
  | .cancelled => 3

/-- `STATUS[7:0]` (10_state.md R30): LAST_VALID, ERR.PV, HALT, TS, RS, SS from bit 7 down. Reading it is no step. -/
def statusByte (s : State) : Byte :=
  BitVec.ofBool s.lastValid ++ BitVec.ofBool s.errPv ++ BitVec.ofBool s.halt ++ timerBits s.ts ++ s.rs
    ++ phaseBit s.ss.phase ++ s.ss.bit

/-- Port STATUS (10_state.md R30): every register of R20, at any time, in the halted state too
(47_session.md R242 (f), 60_exceptions.md R275), without a step and without a side effect. -/
def statusPort (s : State) : StatusView :=
  { packed := statusByte s, cnt := s.cnt, lastLen := s.lastLen, last := s.last, cfgK := s.cfgK, cfgTimeout := s.cfgTimeout,
    cfgLoss := s.cfgLoss, cfgCorr := s.cfgCorr, cfgTest := s.cfgTest }

/-- The code of a status, the first byte of a response (60_exceptions.md R251). -/
def statusCode (st : Status) : Byte :=
  match st with
  | .ok => 0x00
  | .malformedPacket => 0x01
  | .checksumMismatch => 0x02
  | .protocolViolation => 0x03
  | .invalidWidth => 0x04
  | .illegalCommand => 0x05
  | .halted => 0x06

/-- The outcome byte of a response (30_encoding.md R82). -/
def outcomeByte (o : ChOutcome) : Byte :=
  match o with
  | .delivered => 0x00
  | .lost => 0x01
  | .corrupted => 0x02

/-- The bytes of a response on RSP: the status code, then the result (30_encoding.md R82). -/
def responseBytes (st : Status) (result : Bytes) : Bytes := statusCode st :: result

end Sys2Proof.Machine
end

