-- ==== Sys2Proof/Machine/Ops.lean ====
section
/-! DEFINITION. The named operations over the buffer `LAST`, the registers and the ports; `raise`, the one shared
operation of every error (60_exceptions.md R250); the internal operations on the timer and the channel that the
protocol operations invoke (43_timer.md R162, R163; 44_channel.md R180). An error is answered and not entered, so there is
no return from one (60_exceptions.md R264, R265). -/

namespace Sys2Proof.Machine

/-! ### The buffer -/

/-- The byte listed at an address, if one is. -/
def Memory.read (m : Memory) (a : Nat) : Option Byte :=
  match m with
  | [] => none
  | c :: rest => if a = c.1 then some c.2 else Memory.read rest a

/-- Write one byte, keeping the addresses in rising order. -/
def Memory.write (m : Memory) (a : Nat) (b : Byte) : Memory :=
  match m with
  | [] => [(a, b)]
  | c :: rest =>
    if a < c.1 then (a, b) :: c :: rest
    else if a = c.1 then (a, b) :: rest
    else c :: Memory.write rest a b

/-- `MemWrite(buf, a, n, v)`: the bytes of `v` at addresses `a`, `a+1`, … (00_scope.md R8). -/
def Memory.writeBytes (m : Memory) (a : Nat) (v : Bytes) : Memory :=
  match v with
  | [] => m
  | b :: rest => Memory.writeBytes (Memory.write m a b) (a + 1) rest

/-- Forget every byte at address `n` and above: their values become unspecified (10_state.md R26). -/
def Memory.below (m : Memory) (n : Nat) : Memory := m.filter fun c => c.1 < n

/-- The canonical form: addresses strictly rising. An unlisted address holds no value, so no entry can repeat one. -/
def Memory.wf (m : Memory) : Bool :=
  match m with
  | [] => true
  | c :: rest => (rest.all fun d => c.1 < d.1) && Memory.wf rest

/-- The byte of `LAST` at address `a`: what was written there, else a free value (10_state.md R26; log 6). -/
def State.lastByte (s : State) (a : Nat) : Byte := (s.last.read a).getD (Config.freeLast s.fresh a)

/-- `MemRead(LAST, 0, LAST_LEN)` (20_memory.md R53); `none` when the read would leave the buffer (log 17). -/
def State.readLast (s : State) : Option Bytes :=
  if within s.lastLen (maxFrame s.maxPayload) then some ((List.range s.lastLen).map s.lastByte) else none

/-- `MemWrite(LAST, 0, len(F), F); LAST_LEN <- len(F); LAST_VALID <- 1` (45_sender.md R191). The bytes above hold no
specified value afterwards (10_state.md R26; log 6). -/
def State.storeLast (s : State) (F : Bytes) : State :=
  { s with last := (s.last.writeBytes 0 F).below F.length, lastLen := F.length, lastValid := true, fresh := s.fresh + 1 }

/-! ### Registers -/

/-- The block size `K` (10_state.md R33). -/
def State.k (s : State) : Nat := s.cfgK.toNat

/-- `SS <- AwaitingCall(b)` or `AwaitingAck(b)`. -/
def State.setSs (s : State) (p : Phase) (b : BitVec 1) : State := { s with ss := ⟨p, b⟩ }

/-- `RS <- e`. -/
def State.setRs (s : State) (e : BitVec 1) : State := { s with rs := e }

/-- `ERR.PV <- 1` (10_state.md R27). -/
def State.setErrPv (s : State) : State := { s with errPv := true }

/-- `HALT <- 1` (10_state.md R28). -/
def State.setHalt (s : State) : State := { s with halt := true }

/-! ### Outputs -/

/-- Append one event to the output history (10_state.md R35). -/
def State.log (s : State) (o : Output) : State := { s with out := s.out ++ [o] }

/-- `emit(port, F)` (00_scope.md R8). -/
def State.emit (s : State) (port : TxPort) (F : Bytes) : State := s.log (.emit port F)

/-- `deliver(P)` (00_scope.md R8). -/
def State.deliver (s : State) (P : Bytes) : State := s.log (.deliver P)

/-- `respond(status, data)` (00_scope.md R8, 30_encoding.md R82). -/
def State.respond (s : State) (st : Status) (result : Bytes) : State := s.log (.respond st result)

/-- `raise E(info)`, the whole effect of every error: the response carries the code of `E` and `info`; what stands before
the `raise` stays, nothing else is recorded or changed (60_exceptions.md R250, R264). -/
def State.raise (s : State) (e : Status) (info : Bytes) : State := s.respond e info

/-- The answer to every illegal operation (30_encoding.md R83). -/
def State.illegal (s : State) : State := s.raise .illegalCommand []

/-! ### Draws -/

/-- The draws of the next operation that draws: what port RND presents, else free values (00_scope.md R10; log 2). -/
def State.draws (s : State) : Draws :=
  match s.rnd with
  | d :: _ => d
  | [] => ⟨Config.freeU s.fresh, Config.freeV s.fresh, Config.freePos s.fresh⟩

/-- The state after those draws were taken. -/
def State.drawn (s : State) : State :=
  match s.rnd with
  | _ :: rest => { s with rnd := rest }
  | [] => { s with fresh := s.fresh + 1 }

/-- `draw(0, L - 1)` for the flip position: every value of the draw gives a position below `L`, and every position below
`L` is given by some draw (00_scope.md R10; log 2). -/
def Draws.position (d : Draws) (L : Nat) : Nat := d.pos % L

/-! ### The timer -/

/-- TSTART (43_timer.md R162): from every timer state. -/
def State.tstart (s : State) (d : BitVec 32) : State := { s with cnt := d, ts := .running }

/-- The next timer state of TCANCEL (43_timer.md R161, R163). -/
def cancelledTimer (t : TimerState) : TimerState :=
  match t with
  | .running => .cancelled
  | .expired => .idle
  | .idle => .idle
  | .cancelled => .cancelled

/-- TCANCEL (43_timer.md R163): `CNT` is left as it is. -/
def State.tcancel (s : State) : State := { s with ts := cancelledTimer s.ts }

/-! ### The simulated channel -/

/-- The frame with one payload bit complemented, bytes 0 to 5 untouched (44_channel.md R180, R182). -/
def corruptFrame (F : Bytes) (pos : Nat) : Bytes := F.take 6 ++ bytesOf (flipAt (bits (F.drop 6)) pos)

/-- CHSEND (44_channel.md R180): the outcome, and the state after it. -/
def State.chsend (s : State) (port : TxPort) (F : Bytes) : ChOutcome × State :=
  if s.cfgTest = false then (.delivered, s.emit port F)
  else if s.cfgLoss < s.draws.u then (.lost, s.drawn)
  else if s.draws.v < s.cfgCorr ∧ 0 < F.length - 6 then
    (.corrupted, s.drawn.emit port (corruptFrame F (s.draws.position (8 * (F.length - 6)))))
  else (.delivered, s.drawn.emit port F)

/-- `ack(n)` (46_receiver.md R220). -/
def State.ack (s : State) (n : BitVec 16) : Bytes := enc n (pktCk s.k s.ackPayload) s.ackPayload

end Sys2Proof.Machine
end

