-- ==== Sys2Proof/Machine/BitUtil.lean ====
section
/-! DEFINITION. LPAD, FLIP and DIFF (41_bitutil.md R121, R124, R126). -/

namespace Sys2Proof.Machine

/-- LPAD (R121): the `width`-bit representation of the value, right-aligned in whole bytes after its width. -/
def execLpad (width : BitVec 16) (value : Bytes) (s : State) : Result :=
  if operandsOk s.maxPayload (.lpad width value) then
    match leftpad (unbe value) width.toNat with
    | none => .next (s.raise .invalidWidth [])
    | some b => .next (s.respond .ok (be16 width ++ rightAligned b))
  else .next s.illegal

/-- FLIP (R124): one bit of `data` complemented; refused where the injector is absent and for empty data. -/
def execFlip (data : Bytes) (s : State) : Result :=
  if operandsOk s.maxPayload (.flip data) then
    if s.cfgTest = false then .next s.illegal
    else if data.length = 0 then .next s.illegal
    else .next (s.drawn.respond .ok (bytesOf (flipAt (bits data) (s.draws.position (8 * data.length)))))
  else .next s.illegal

/-- DIFF (R126): the exclusive-or mask of the two halves of `data`. -/
def execDiff (data : Bytes) (s : State) : Result :=
  if operandsOk s.maxPayload (.diff data) then
    .next (s.respond .ok (bytesOf (diffMask (bits (halves data).1) (bits (halves data).2))))
  else .next s.illegal

end Sys2Proof.Machine
end

