-- ==== Sys2Proof/Machine/Channel.lean ====
section
/-! DEFINITION. CHSEND as an operation of its own (44_channel.md R180). -/

namespace Sys2Proof.Machine

/-- CHSEND (R180), internal. The outcome is returned to the invoking operation; run by itself it has no invoker and no
response, so the outcome is recorded in the history (log 14). -/
def execChsend (port : TxPort) (frame : Bytes) (s : State) : Result :=
  .next ((s.chsend port frame).2.log (.outcome (s.chsend port frame).1))

end Sys2Proof.Machine
end

