-- ==== Sys2Proof/Machine/Checksum.lean ====
section
/-! DEFINITION. CKGEN and CKVFY (40_checksum.md R108, R109). -/

namespace Sys2Proof.Machine

/-- CKGEN (R108): the packet checksum of `data`. -/
def execCkgen (data : Bytes) (s : State) : Result :=
  if operandsOk s.maxPayload (.ckgen data) then
    .next (s.respond .ok (be32 (pktCk s.k data)))
  else .next s.illegal

/-- CKVFY (R109): whether `data` sums to all ones. A failed verification is its result, not an error. -/
def execCkvfy (data : Bytes) (s : State) : Result :=
  if operandsOk s.maxPayload (.ckvfy data) then
    .next (s.respond .ok [if vfyRaw (bits data) s.k then 0x01 else 0x00])
  else .next s.illegal

end Sys2Proof.Machine
end

