-- ==== Sys2Proof/Machine/Codec.lean ====
section
/-! DEFINITION. ENCS, ENCR and DEC (42_codec.md R143, R144, R147). -/

namespace Sys2Proof.Machine

/-- ENCS (R143): the frame of the operands as given. -/
def execEncs (number : BitVec 16) (checksum : BitVec 32) (payload : Bytes) (s : State) : Result :=
  if operandsOk s.maxPayload (.encs number checksum payload) then
    .next (s.respond .ok (enc number checksum payload))
  else .next s.illegal

/-- ENCR (R144): as ENCS; the number is meant as an ACK number. -/
def execEncr (number : BitVec 16) (checksum : BitVec 32) (payload : Bytes) (s : State) : Result :=
  if operandsOk s.maxPayload (.encr number checksum payload) then
    .next (s.respond .ok (enc number checksum payload))
  else .next s.illegal

/-- DEC (R147): number, checksum and payload of the frame; the role does not affect the result (R149). -/
def execDec (role : Role) (frame : Bytes) (s : State) : Result :=
  if operandsOk s.maxPayload (.dec role frame) then
    match dec frame with
    | none => .next (s.raise .malformedPacket [])
    | some (n, c, P) => .next (s.respond .ok (be16 n ++ be32 c ++ P))
  else .next s.illegal

end Sys2Proof.Machine
end

