-- ==== Sys2Proof/Machine/Receiver.lean ====
section
/-! DEFINITION. RXPKT (46_receiver.md R221 to R225). -/

namespace Sys2Proof.Machine

/-- RXPKT (R221): the invalid-checksum branch (R222), the duplicate branch (R223), the accepting branch (R224). -/
def execRxpkt (frame : Bytes) (s : State) : Result :=
  if operandsOk s.maxPayload (.rxpkt frame) then
    if s.halt then .next (s.raise .halted [])
    else
      match dec frame with
      | none => .next (s.raise .malformedPacket [])
      | some (n, c, P) =>
        if pktOk s.k c P = false then
          let sent := s.chsend .txr (s.ack (zext16 (~~~s.rs)))
          .next (sent.2.raise .checksumMismatch [outcomeByte sent.1])
        else if n ≠ zext16 s.rs then
          let sent := s.chsend .txr (s.ack n)
          .next (sent.2.respond .ok [0x01, outcomeByte sent.1])
        else
          let sent := s.chsend .txr (s.ack (zext16 s.rs))
          .next (((sent.2.deliver P).setRs (~~~s.rs)).respond .ok [0x00, outcomeByte sent.1])
  else .next s.illegal

end Sys2Proof.Machine
end

