-- ==== Sys2Proof/Machine/Sender.lean ====
section
/-! DEFINITION. SEND, RXACK and TMO (45_sender.md R191 to R196). -/

namespace Sys2Proof.Machine

/-- The frame SEND builds: number `zext_16(SS.bit)` and the packet checksum of the payload (R191). -/
def State.dataFrame (s : State) (payload : Bytes) : Bytes := enc (zext16 s.ss.bit) (pktCk s.k payload) payload

/-- SEND (R191, R192). -/
def execSend (payload : Bytes) (s : State) : Result :=
  if operandsOk s.maxPayload (.send payload) then
    if s.halt then .next (s.raise .halted [])
    else
      match s.ss.phase with
      | .awaitingAck => .next (s.setErrPv.raise .protocolViolation [])
      | .awaitingCall =>
        let F := s.dataFrame payload
        let sent := (s.storeLast F).chsend .txs F
        .next (((sent.2.tstart s.cfgTimeout).setSs .awaitingAck s.ss.bit).respond .ok [outcomeByte sent.1])
  else .next s.illegal

/-- RXACK (R193, R194, R195). -/
def execRxack (frame : Bytes) (s : State) : Result :=
  if operandsOk s.maxPayload (.rxack frame) then
    if s.halt then .next (s.raise .halted [])
    else
      match s.ss.phase with
      | .awaitingCall => .next (s.respond .ok [0x01])
      | .awaitingAck =>
        match dec frame with
        | none => .next (s.raise .malformedPacket [])
        | some (n, c, P) =>
          if pktOk s.k c P = false then .next (s.raise .checksumMismatch [])
          else if n ≠ zext16 s.ss.bit then .next (s.respond .ok [0x02])
          else .next ((s.tcancel.setSs .awaitingCall (~~~s.ss.bit)).respond .ok [0x00])
  else .next s.illegal

/-- TMO (R196), internal: retransmit `LAST` and re-arm the timer; no response, the outcome goes to the history only. Where
the guard is false the step is not taken: nothing happens (log 9). -/
def execTmo (s : State) : Result :=
  if tmoEnabled s then
    match s.readLast with
    | none => .fault .lastBeyondBuffer
    | some F =>
      let sent := s.chsend .txs F
      .next ((sent.2.tstart s.cfgTimeout).log (.outcome sent.1))
  else .next s

end Sys2Proof.Machine
end

