-- ==== Sys2Proof/Machine/Session.lean ====
section
/-! DEFINITION. SHUTDOWN (47_session.md R240). -/

namespace Sys2Proof.Machine

/-- SHUTDOWN (R240): halt, cancel the timer, respond, in that order. -/
def execShutdown (s : State) : Result := .next (s.setHalt.tcancel.respond .ok [])

end Sys2Proof.Machine
end

