-- ==== Sys2Proof/Machine/Timer.lean ====
section
/-! DEFINITION. TSTART, TCANCEL, TICK and TEXPD (43_timer.md R162, R163, R164, R166). -/

namespace Sys2Proof.Machine

/-- TSTART (R162), internal. -/
def execTstart (d : BitVec 32) (s : State) : Result := .next (s.tstart d)

/-- TCANCEL (R163), internal. -/
def execTcancel (s : State) : Result := .next s.tcancel

/-- TICK (R164): one unit of the countdown; no response. -/
def execTick (s : State) : Result :=
  match s.ts with
  | .running =>
    if s.cnt ≤ 1 then .next { s with cnt := 0, ts := .expired }
    else .next { s with cnt := s.cnt - 1 }
  | .idle => .next s
  | .expired => .next s
  | .cancelled => .next s

/-- TEXPD (R166): whether the timer has expired; the query does not consume the expiry. -/
def execTexpd (s : State) : Result :=
  .next (s.respond .ok [if hasExpired s then 0x01 else 0x00])

end Sys2Proof.Machine
end

