-- ==== Sys2Proof/Machine/Dispatch.lean ====
section
/-! DEFINITION. One arm per operation: the meaning of each row of spec/opcode_table.json. -/

namespace Sys2Proof.Machine

def exec (i : Instr) (s : State) : Host.Outcome State Fault Refusal :=
  match i with
  | .ckgen data => Sys2Proof.Machine.execCkgen data s
  | .ckvfy data => Sys2Proof.Machine.execCkvfy data s
  | .lpad width value => Sys2Proof.Machine.execLpad width value s
  | .flip data => Sys2Proof.Machine.execFlip data s
  | .diff data => Sys2Proof.Machine.execDiff data s
  | .encs number checksum payload => Sys2Proof.Machine.execEncs number checksum payload s
  | .encr number checksum payload => Sys2Proof.Machine.execEncr number checksum payload s
  | .dec role frame => Sys2Proof.Machine.execDec role frame s
  | .send payload => Sys2Proof.Machine.execSend payload s
  | .rxack frame => Sys2Proof.Machine.execRxack frame s
  | .rxpkt frame => Sys2Proof.Machine.execRxpkt frame s
  | .tick => Sys2Proof.Machine.execTick s
  | .shutdown => Sys2Proof.Machine.execShutdown s
  | .texpd => Sys2Proof.Machine.execTexpd s
  | .tstart d => Sys2Proof.Machine.execTstart d s
  | .tcancel => Sys2Proof.Machine.execTcancel s
  | .chsend port frame => Sys2Proof.Machine.execChsend port frame s
  | .tmo => Sys2Proof.Machine.execTmo s

end Sys2Proof.Machine
end

