-- ==== Sys2Proof/Machine/Ports.lean ====
section
/-! DEFINITION. How an operation reaches the block: an item presented on an input port (30_encoding.md R70, R80, R83), a turn
of the sender control loop (45_sender.md R196), the reset input (70_reset_and_hazards.md R290). -/

namespace Sys2Proof.Machine

/-- An item arrives on a port: it is decoded, its opcode must be one of that port, and it is run; everything else is
answered IllegalCommand with no other effect (30_encoding.md R83; log 11). -/
def present (port : InPort) (item : Bytes) (s : State) : Result :=
  match decode item with
  | .illegal _ => .next s.illegal
  | .op i => if portOf i = some port then exec i s else .next s.illegal

/-- Reset is asserted (70_reset_and_hazards.md R290): the whole state takes its values of 10_state.md R40, the configuration
registers the instance's parameters, and nothing is output. What the outside still has to present stays with it (log 13). -/
def resetAsserted (s : State) : State :=
  { State.resetWith s.params with stimuli := s.stimuli, rnd := s.rnd, fresh := s.fresh + 1 }

/-- One stimulus is taken (60_exceptions.md R262). -/
def takeStimulus (st : Stimulus) (s : State) : Result :=
  match st with
  | .present port item => present port item s
  | .controlLoop => exec .tmo s
  | .resetInput => .next (resetAsserted s)

/-- The next step of the block: the next stimulus; with none, the control loop takes TMO if it is enabled, and otherwise
nothing happens (60_exceptions.md R275; log 10). -/
def advance (s : State) : Result :=
  match s.stimuli with
  | st :: rest => takeStimulus st { s with stimuli := rest }
  | [] => exec .tmo s

/-- The stimulus that presents a table word's item on the port the table gives it. -/
def tableStimulus (nbits w : Nat) : Stimulus :=
  .present (tablePort (tableItem nbits w)) (tableItem nbits w)

end Sys2Proof.Machine
end

