-- ==== Sys2Proof/Machine/Step.lean ====
section
/-! DEFINITION. One step of the block (00_scope.md R9). -/

namespace Sys2Proof.Machine

/-- One step: one operation from start to end, or one assertion of reset. -/
def step (s : State) : Host.Outcome State Fault Refusal := advance s

/-- `s` with a table word's operation as the next thing presented to the block (log 20). -/
def State.withFetchWord (s : State) (nbits w : Nat) : State :=
  { s with stimuli := tableStimulus nbits w :: s.stimuli }

end Sys2Proof.Machine
end

