-- ==== Sys2Proof/Safety.lean ====
section
/-! DEFINITION. What claims about the block speak of: legal configurations, the invariants of 10_state.md R36 and of the
buffer, the outputs of a run by port, runs of operations, and what an operation encoding must not be. -/

namespace Sys2Proof.Machine

/-! ### Configurations -/

/-- A configuration that exists (70_reset_and_hazards.md R292): `K` is 1 to 4 and `ACK_PAYLOAD` is no longer than
`MAX_PAYLOAD`; the other ranges hold by type. -/
def LegalConfig (s : State) : Prop :=
  1 ≤ s.k ∧ s.k ≤ 4 ∧ within s.ackPayload.length s.maxPayload = true

/-- The two states belong to one instance: equal configuration (70_reset_and_hazards.md R294). -/
def SameConfig (s t : State) : Prop := s.params = t.params

/-! ### Outputs by port -/

/-- The frames emitted on a port, oldest first. -/
def emittedOn (port : TxPort) (o : List Output) : List Bytes :=
  o.filterMap fun e => match e with
    | .emit p F => if p = port then some F else none
    | .deliver _ => none
    | .respond _ _ => none
    | .outcome _ => none

/-- The payloads delivered on APP, oldest first. -/
def deliveries (o : List Output) : List Bytes :=
  o.filterMap fun e => match e with
    | .deliver P => some P
    | .emit _ _ => none
    | .respond _ _ => none
    | .outcome _ => none

/-- The statuses of the responses on RSP, oldest first. -/
def statuses (o : List Output) : List Status :=
  o.filterMap fun e => match e with
    | .respond st _ => some st
    | .deliver _ => none
    | .emit _ _ => none
    | .outcome _ => none

/-! ### The halves of an endpoint -/

/-- The sender half: `SS`, `TS`, `CNT`, `LAST`, `LAST_LEN`, `LAST_VALID` (10_state.md R20). -/
def senderHalf (s : State) : SenderState × TimerState × BitVec 32 × Memory × Nat × Bool :=
  (s.ss, s.ts, s.cnt, s.last, s.lastLen, s.lastValid)

/-- The registers of the protocol: the sender half, `RS`, `ERR.PV` and `HALT` (10_state.md R20). -/
def protocolRegisters (s : State) :
    (SenderState × TimerState × BitVec 32 × Memory × Nat × Bool) × BitVec 1 × Bool × Bool :=
  (senderHalf s, s.rs, s.errPv, s.halt)

/-! ### The buffer -/

/-- `LAST` holds exactly the frame `F` (10_state.md R26). -/
def LastHolds (s : State) (F : Bytes) : Prop :=
  s.lastValid = true ∧ s.lastLen = F.length ∧ ∀ a, a < F.length → s.last.read a = F[a]?

/-- The buffer's part of the state: in canonical form, written exactly below `LAST_LEN`, `LAST_LEN` within
`MAX_FRAME` and 0 while nothing was sent; once valid it holds a frame the sender built, and while the sender awaits an
ACK, the frame numbered with the sequence bit (10_state.md R26, 45_sender.md R191, R198). -/
structure BufferInv (s : State) : Prop where
  canonical : s.last.wf = true
  length_within : within s.lastLen (maxFrame s.maxPayload) = true
  written : ∀ a, (s.last.read a).isSome = true ↔ a < s.lastLen
  empty : s.lastValid = false → s.lastLen = 0
  frame : s.lastValid = true → ∃ b P, within P.length s.maxPayload = true ∧ LastHolds s (enc (zext16 b) (pktCk s.k P) P)
  awaiting : s.ss.phase = .awaitingAck →
    ∃ P, within P.length s.maxPayload = true ∧ LastHolds s (enc (zext16 s.ss.bit) (pktCk s.k P) P)

/-! ### The invariants of 10_state.md R36 -/

/-- I1 to I5 of R36; I6 holds by the types of `SS.bit` and `RS`. -/
structure ProtocolInv (s : State) : Prop where
  i1 : s.ss.phase = .awaitingAck → s.lastValid = true
  i2 : s.halt = false → s.ss.phase = .awaitingAck → s.ts = .running ∨ s.ts = .expired
  i3 : s.ss.phase = .awaitingCall → s.ts = .idle ∨ s.ts = .cancelled
  i4 : s.ts = .running → s.cnt ≤ s.cfgTimeout
  i5 : s.halt = true → s.ts ≠ .running ∧ s.ts ≠ .expired

/-! ### The channel, said of its draws -/

/-- `d` are draws port RND can answer in `s`: those that wait there; any, when none wait (00_scope.md R10). -/
def DrawsOf (s : State) (d : Draws) : Prop := ∀ d', s.rnd.head? = some d' → d = d'

/-- The outcome of a transmission of `F` under draws `d` (44_channel.md R180). -/
def channelOutcome (s : State) (d : Draws) (F : Bytes) : ChOutcome :=
  if s.cfgTest = false then .delivered
  else if s.cfgLoss < d.u then .lost
  else if d.v < s.cfgCorr ∧ 6 < F.length then .corrupted
  else .delivered

/-- What appears on the port: the frame, nothing, or the frame with the payload bit complemented that `d.pos` names
(44_channel.md R180). -/
def channelEvents (s : State) (port : TxPort) (d : Draws) (F : Bytes) : List Output :=
  match channelOutcome s d F with
  | .delivered => [.emit port F]
  | .lost => []
  | .corrupted => [.emit port (F.take 6 ++ bytesOf (flipAt (bits (F.drop 6)) (d.pos % (8 * (F.length - 6)))))]

/-- The draws that wait on port RND after a transmission. -/
def rndAfter (s : State) : List Draws := if s.cfgTest then s.rnd.tail else s.rnd

/-! ### Runs -/

/-- Run operations one after another, stopping at the first fault or refusal. -/
def execAll (is : List Instr) (s : State) : Result :=
  match is with
  | [] => .next s
  | i :: rest =>
    match exec i s with
    | .next t => execAll rest t
    | .fault r => .fault r
    | .refused r => .refused r

/-- The frames `exec i` newly emits on a port, with the state after it. -/
def execEmitting (port : TxPort) (i : Instr) (s : State) : Option (List Bytes × State) :=
  match exec i s with
  | .next t => some (emittedOn port (t.out.drop s.out.length), t)
  | .fault _ => none
  | .refused _ => none

/-- Present each of the frames to a receive operation, in order. -/
def execFrames (op : Bytes → Instr) (frames : List Bytes) (s : State) : Option State :=
  match frames with
  | [] => some s
  | F :: rest =>
    match exec (op F) s with
    | .next t => execFrames op rest t
    | .fault _ => none
    | .refused _ => none

/-- One loss-free round trip (46_receiver.md R228): endpoint `a` sends `P`; every frame it emits on TXS is presented to
RXPKT of endpoint `b`, and every frame `b` emits on TXR is presented to RXACK of `a`. -/
def roundTrip (P : Bytes) (a b : State) : Option (State × State) :=
  match execEmitting .txs (.send P) a with
  | none => none
  | some (data, a1) =>
    match execFrames .rxpkt data b with
    | none => none
    | some b1 =>
      match execFrames .rxack (emittedOn .txr (b1.out.drop b.out.length)) a1 with
      | none => none
      | some a2 => some (a2, b1)

/-- Round trips of a list of payloads, each before the next SEND. -/
def roundTrips (Ps : List Bytes) (a b : State) : Option (State × State) :=
  match Ps with
  | [] => some (a, b)
  | P :: rest =>
    match roundTrip P a b with
    | none => none
    | some (a1, b1) => roundTrips rest a1 b1

/-! ### The accumulator of 40_checksum.md R102 (b) -/

/-- One step of the `W`-bit accumulator: add a block; a carry out of bit `W-1` is added back (R102 (b)). -/
def accumulate (W acc B : Nat) : Nat := if acc + B < 2 ^ W then acc + B else acc + B - 2 ^ W + 1

/-! ### Encodings that are no operation -/

/-- An item that 30_encoding.md R83 and R84 make illegal on a port, for an instance with the given `MAX_PAYLOAD`. -/
def IllegalItem (maxPayload : Option Nat) (port : InPort) (item : Bytes) : Prop :=
  item = [] ∨ ∃ (op : Byte) (rest : Bytes), item = op :: rest ∧
    (op ∉ ([0x01, 0x02, 0x03, 0x04, 0x05, 0x06, 0x07, 0x08, 0x10, 0x11, 0x12, 0x13, 0x14, 0x15] : List Byte)
    ∨ (op ∈ ([0x13, 0x14, 0x15] : List Byte) ∧ rest ≠ [])
    ∨ (op = 0x03 ∧ item.length < 3)
    ∨ (op ∈ ([0x06, 0x07] : List Byte) ∧ item.length < 7)
    ∨ (op = 0x08 ∧ (item.length < 2 ∨ ∃ r frame, rest = r :: frame ∧ r ≠ 0 ∧ r ≠ 1))
    ∨ (op = 0x05 ∧ rest.length % 2 = 1)
    ∨ (op = 0x11 ∧ port ≠ .rxs)
    ∨ (op = 0x12 ∧ port ≠ .rxr)
    ∨ (op = 0x13 ∧ port ≠ .tick)
    ∨ (op ∉ ([0x11, 0x12, 0x13] : List Byte) ∧ port ≠ .cmd)
    ∨ ∃ m, maxPayload = some m ∧
        ((op ∈ ([0x01, 0x10] : List Byte) ∧ m < rest.length)
        ∨ (op = 0x03 ∧ 8192 < rest.length - 2)
        ∨ (op ∈ ([0x02, 0x04, 0x11, 0x12] : List Byte) ∧ m + 6 < rest.length)
        ∨ (op = 0x05 ∧ 2 * (m + 6) < rest.length)
        ∨ (op ∈ ([0x06, 0x07] : List Byte) ∧ m < rest.length - 6)
        ∨ (op = 0x08 ∧ m + 6 < rest.length - 1)))

end Sys2Proof.Machine
end

