-- ==== Sys2Proof/Certificates/Slice0/Obligations.lean ====
section
/-! DEFINITION. The statements for the provers. Each docstring names the rule of spec/ it formalises, or the log entry of a
choice of the model it rests on. -/

open Sys2Proof Sys2Proof.Machine

/-! ### Encoding -/

/-- Words written out from the layouts of 30_encoding.md R80 and R81, one for each of the 14 opcodes, decode to the
operations they stand for. -/
def Obligations.SpecWordsDecodeToTheirOperations : Prop :=
  decode [0x01, 0x41] = .op (.ckgen [0x41])
  ∧ decode [0x02, 0x41, 0x00, 0x00, 0x00, 0xBE] = .op (.ckvfy [0x41, 0x00, 0x00, 0x00, 0xBE])
  ∧ decode [0x03, 0x00, 0x0C, 0x03, 0xFF] = .op (.lpad 12 [0x03, 0xFF])
  ∧ decode [0x04, 0x41] = .op (.flip [0x41])
  ∧ decode [0x05, 0x41, 0x40] = .op (.diff [0x41, 0x40])
  ∧ decode [0x06, 0xAB, 0xCD, 0x01, 0x02, 0x03, 0x04, 0xAA, 0xBB] = .op (.encs 0xABCD 0x01020304 [0xAA, 0xBB])
  ∧ decode [0x07, 0x00, 0x01, 0xFF, 0xFF, 0xFF, 0xFF] = .op (.encr 1 0xFFFFFFFF [])
  ∧ decode [0x08, 0x01, 0x00, 0x05] = .op (.dec .receiver [0x00, 0x05])
  ∧ decode [0x10, 0x48, 0x69] = .op (.send [0x48, 0x69])
  ∧ decode [0x11, 0x00, 0x01] = .op (.rxack [0x00, 0x01])
  ∧ decode [0x12] = .op (.rxpkt [])
  ∧ decode [0x13] = .op .tick
  ∧ decode [0x14] = .op .shutdown
  ∧ decode [0x15] = .op .texpd

/-- For every host operation of well-formed shape, with every operand, decoding its encoding gives it back
(30_encoding.md R80, R81). -/
def Obligations.DecodeOfEncodeIsTheOperation : Prop :=
  ∀ i, shapeOk i = true → isHostOp i = true → ∃ item, encode i = some item ∧ decode item = .op i

/-- Where the decoder reads an operation, the item is that operation's encoding and no other's: no byte of an item is
dropped, and no item has two readings (30_encoding.md R80, R81). -/
def Obligations.EncodeOfDecodeIsTheItem : Prop :=
  ∀ item i, decode item = .op i → encode i = some item ∧ shapeOk i = true ∧ isHostOp i = true

/-- An item that 30_encoding.md R83 and R84 make illegal is answered IllegalCommand and has no other effect; every other item
is an operation of its port with legal operands, and the step runs it. That an illegal item on port TICK is answered
too rests on log 11. -/
def Obligations.PresentedItemIsAnsweredOrRun : Prop :=
  ∀ s port item rest, s.stimuli = .present port item :: rest →
    (IllegalItem s.maxPayload port item →
      step s = .next { s with stimuli := rest, out := s.out ++ [.respond .illegalCommand []] })
    ∧ (¬ IllegalItem s.maxPayload port item →
      ∃ i, decode item = .op i ∧ portOf i = some port ∧ operandsOk s.maxPayload i = true
        ∧ step s = exec i { s with stimuli := rest })

/-! ### Steps and reset -/

/-- A step runs the decoded operation: with an item next on its port, the step is `exec` of the operation the item decodes
to, at the state without that stimulus; nothing else is added around it (00_scope.md R9; log 1). -/
def Obligations.StepRunsThePresentedOperation : Prop :=
  ∀ s port item rest i, s.stimuli = .present port item :: rest → decode item = .op i → portOf i = some port →
    step s = exec i { s with stimuli := rest }

/-- A turn of the control loop runs TMO; with nothing presented the control loop has its turn (log 10), and where TMO
is not enabled nothing happens (60_exceptions.md R275; log 9). -/
def Obligations.ControlLoopTurnAndQuiescence : Prop :=
  (∀ s rest, s.stimuli = .controlLoop :: rest → step s = exec .tmo { s with stimuli := rest })
  ∧ (∀ s, s.stimuli = [] → step s = exec .tmo s)
  ∧ (∀ s, s.stimuli = [] → tmoEnabled s = false → step s = .next s)

/-- Reset gives every piece of state the value of 10_state.md R40, whatever the state before, and `State.resetWith` is that state for
every instance. No byte of `LAST` is given a value. -/
def Obligations.ResetGivesTheResetValues : Prop :=
  (∀ s rest, s.stimuli = .resetInput :: rest → ∃ t, step s = .next t
    ∧ t.ss = ⟨.awaitingCall, 0⟩ ∧ t.rs = 0 ∧ t.ts = .idle ∧ t.cnt = 0 ∧ (∀ a, t.last.read a = none)
    ∧ t.lastLen = 0 ∧ t.lastValid = false ∧ t.errPv = false ∧ t.halt = false ∧ t.params = s.params ∧ t.out = [])
  ∧ (∀ p : Params, (State.resetWith p).ss = ⟨.awaitingCall, 0⟩ ∧ (State.resetWith p).rs = 0
    ∧ (State.resetWith p).ts = .idle ∧ (State.resetWith p).cnt = 0 ∧ (∀ a, (State.resetWith p).last.read a = none)
    ∧ (State.resetWith p).lastLen = 0 ∧ (State.resetWith p).lastValid = false ∧ (State.resetWith p).errPv = false
    ∧ (State.resetWith p).halt = false ∧ (State.resetWith p).params = p ∧ (State.resetWith p).out = [])

/-- Port STATUS presents the packed byte and, beside it, the other registers (10_state.md R30). That the contents of `LAST`
are among them is read from R30 with 60_exceptions.md R275 (log 12). -/
def Obligations.StatusPortPacksTheRegisters : Prop :=
  ∀ s, (statusPort s).packed.extractLsb' 0 1 = s.ss.bit
    ∧ (statusPort s).packed.extractLsb' 1 1 = (if s.ss.phase = .awaitingAck then 1 else 0)
    ∧ (statusPort s).packed.extractLsb' 2 1 = s.rs
    ∧ (statusPort s).packed.extractLsb' 3 2
        = (match s.ts with | .idle => 0 | .running => 1 | .expired => 2 | .cancelled => 3)
    ∧ (statusPort s).packed.getLsbD 5 = s.halt
    ∧ (statusPort s).packed.getLsbD 6 = s.errPv
    ∧ (statusPort s).packed.getLsbD 7 = s.lastValid
    ∧ (statusPort s).cnt = s.cnt ∧ (statusPort s).lastLen = s.lastLen ∧ (statusPort s).last = s.last
    ∧ (statusPort s).cfgK = s.cfgK
    ∧ (statusPort s).cfgTimeout = s.cfgTimeout ∧ (statusPort s).cfgLoss = s.cfgLoss
    ∧ (statusPort s).cfgCorr = s.cfgCorr ∧ (statusPort s).cfgTest = s.cfgTest

/-! ### The checksum engine -/

/-- The blocks are the `W`-bit digits of `val b` from the least significant end (40_checksum.md R100). -/
def Obligations.BlocksAreDigitsFromTheEnd : Prop :=
  ∀ (b : Bits) (W : Nat), 0 < W →
    (blocks b W).length = (b.length + W - 1) / W
    ∧ ∀ i, i < (blocks b W).length →
        (blocks b W)[(blocks b W).length - 1 - i]? = some (val b / 2 ^ (W * i) % 2 ^ W)

/-- Folding (40_checksum.md R102): its definition by end-around carry, its range, its characterisation (a) by the residue modulo
`2^W - 1`, and its equality (b) with the `W`-bit accumulator over the blocks in any order. -/
def Obligations.FoldingIsEndAroundCarry : Prop :=
  ∀ W, 0 < W →
    (∀ T, foldSum T W = if 2 ^ W ≤ T then foldSum (T % 2 ^ W + T / 2 ^ W) W else T)
    ∧ (∀ T, foldSum T W ≤ 2 ^ W - 1)
    ∧ (∀ T, foldSum T W = 0 ↔ T = 0)
    ∧ (∀ T, 0 < T → 1 ≤ foldSum T W ∧ foldSum T W % (2 ^ W - 1) = T % (2 ^ W - 1)
        ∧ ∀ S, 1 ≤ S → S ≤ 2 ^ W - 1 → S % (2 ^ W - 1) = T % (2 ^ W - 1) → S = foldSum T W)
    ∧ (∀ T, foldSum T W = 2 ^ W - 1 ↔ 0 < T ∧ (2 ^ W - 1) ∣ T)
    ∧ (∀ b : Bits, sum1c b W = foldSum (blockSum b W) W)
    ∧ (∀ Bs : List Nat, (∀ B ∈ Bs, B < 2 ^ W) → Bs.foldl (accumulate W) 0 = foldSum Bs.sum W)
    ∧ (∀ (b : Bits) (order : List Nat), order.Perm (blocks b W) → order.foldl (accumulate W) 0 = sum1c b W)

/-- `gen_raw` is the bitwise complement of the folded sum on exactly `W` bits (40_checksum.md R103); `vfy_raw` says that the folded
sum is all ones, that is, that the sum is positive and a multiple of `2^W - 1`; all-zero strings and the empty string do
not verify, and a string whose blocks are all zero gets the checksum `2^W - 1` (40_checksum.md R104). -/
def Obligations.GenerateComplementsAndVerifyNeedsAllOnes : Prop :=
  ∀ k, 1 ≤ k →
    (∀ b : Bits, genRaw b k = (2 ^ (8 * k) - 1) - sum1c b (8 * k)
      ∧ genRaw b k ≤ 2 ^ (8 * k) - 1
      ∧ (bstr (8 * k) (genRaw b k)).length = 8 * k
      ∧ val (bstr (8 * k) (genRaw b k)) = genRaw b k
      ∧ bstr (8 * k) (genRaw b k) = (bstr (8 * k) (sum1c b (8 * k))).map (!·))
    ∧ (∀ b : Bits, vfyRaw b k = true ↔ sum1c b (8 * k) = 2 ^ (8 * k) - 1)
    ∧ (∀ b : Bits, vfyRaw b k = true ↔ 0 < blockSum b (8 * k) ∧ (2 ^ (8 * k) - 1) ∣ blockSum b (8 * k))
    ∧ (∀ n, vfyRaw (zeros n) k = false)
    ∧ (∀ b : Bits, (∀ B ∈ blocks b (8 * k), B = 0) → genRaw b k = 2 ^ (8 * k) - 1)

/-- The packet checksum is the block-width checksum of payload and zero field, zero-extended; for `K` = 1, 2 or 4 the zero
field changes nothing; block size 1 and payload 0x41 give 0x000000BE (40_checksum.md R105). -/
def Obligations.PacketChecksumIsZeroExtended : Prop :=
  (∀ (k : Nat) (P : Bytes), 1 ≤ k → k ≤ 4 →
    (pktCk k P).toNat = genRaw (bits P ++ zeros 32) k
    ∧ (pktCk k P).toNat < 2 ^ (8 * k)
    ∧ (k ≠ 3 → (pktCk k P).toNat = genRaw (bits P) k))
  ∧ pktCk 1 [0x41] = 0x000000BE

/-- Round trip (40_checksum.md R110), for packets and for the raw functions at every block size. -/
def Obligations.GeneratedChecksumVerifies : Prop :=
  (∀ (k : Nat) (P : Bytes), 1 ≤ k → k ≤ 4 → pktOk k (pktCk k P) P = true)
  ∧ (∀ (b : Bits) (k : Nat), 1 ≤ k →
      vfyRaw (b ++ bstr (8 * k) (genRaw b k)) k = true
      ∧ vfyRaw (b ++ bstr (8 * k) (genRaw (b ++ zeros (8 * k)) k)) k = true)
  ∧ (∀ s P, LegalConfig s → within P.length s.maxPayload = true →
      exec (.ckgen P) s = .next { s with out := s.out ++ [.respond .ok (be32 (pktCk s.k P))] }
      ∧ exec (.ckvfy (P ++ be32 (pktCk s.k P))) s = .next { s with out := s.out ++ [.respond .ok [0x01]] })

/-- Every single-bit flip in a payload or in its 32-bit checksum field is detected (40_checksum.md R111). -/
def Obligations.SingleBitFlipIsDetected : Prop :=
  ∀ (k : Nat) (P : Bytes) (pos : Nat), 1 ≤ k → k ≤ 4 → pos < 8 * P.length + 32 →
    vfyRaw (flipAt (bits P ++ bstr 32 (pktCk k P).toNat) pos) k = false

/-- What the checksum does not see (40_checksum.md R111 (c), (d)): a permutation of whole blocks, and leading zero bytes of
the payload. -/
def Obligations.PermutationsAndLeadingZerosAreNotDetected : Prop :=
  (∀ (b b' : Bits) (W : Nat), 0 < W → (blocks b W).Perm (blocks b' W) → sum1c b W = sum1c b' W)
  ∧ (∀ (k n : Nat) (P : Bytes), 1 ≤ k → k ≤ 4 →
      pktCk k (List.replicate n 0 ++ P) = pktCk k P
      ∧ ∀ c, pktOk k c (List.replicate n 0 ++ P) = pktOk k c P)

/-- Empty and all-zero payloads (40_checksum.md R112). -/
def Obligations.ZeroPayloadHasTheAllOnesChecksum : Prop :=
  ∀ k n : Nat, 1 ≤ k → k ≤ 4 →
    (pktCk k (List.replicate n 0)).toNat = 2 ^ (8 * k) - 1
    ∧ pktOk k (pktCk k (List.replicate n 0)) (List.replicate n 0) = true

/-- CKGEN (40_checksum.md R108) responds the packet checksum of its data, CKVFY (40_checksum.md R109) whether its data sums to all
ones; too long, IllegalCommand. Nothing else changes. -/
def Obligations.ChecksumOperationsRespondTheResult : Prop :=
  ∀ (data : Bytes) (s : State),
    (within data.length s.maxPayload = true →
      exec (.ckgen data) s = .next { s with out := s.out ++ [.respond .ok (be32 (pktCk s.k data))] })
    ∧ (within data.length s.maxPayload = false →
      exec (.ckgen data) s = .next { s with out := s.out ++ [.respond .illegalCommand []] })
    ∧ (within data.length (maxFrame s.maxPayload) = true →
      exec (.ckvfy data) s
        = .next { s with out := s.out ++ [.respond .ok [if sum1c (bits data) (8 * s.k) = 2 ^ (8 * s.k) - 1 then 1 else 0]] })
    ∧ (within data.length (maxFrame s.maxPayload) = false →
      exec (.ckvfy data) s = .next { s with out := s.out ++ [.respond .illegalCommand []] })

/-! ### The bit utility -/

/-- LPAD (41_bitutil.md R121): above its limit, IllegalCommand; a value that does not fit, InvalidWidth; otherwise the width and the
big-endian bytes of the value in `ceil(width/8)` bytes. Nothing else changes. The limit is 8192 bytes, and there is none
where `MAX_PAYLOAD` is unbounded (30_encoding.md R84). -/
def Obligations.LpadRespondsThePaddedValue : Prop :=
  ∀ (width : BitVec 16) (value : Bytes) (s : State),
    (s.maxPayload ≠ none → 8192 < value.length →
      exec (.lpad width value) s = .next { s with out := s.out ++ [.respond .illegalCommand []] })
    ∧ (s.maxPayload = none ∨ value.length ≤ 8192 → 2 ^ width.toNat ≤ unbe value →
      exec (.lpad width value) s = .next { s with out := s.out ++ [.respond .invalidWidth []] })
    ∧ (s.maxPayload = none ∨ value.length ≤ 8192 → unbe value < 2 ^ width.toNat →
      ∃ B : Bytes, B.length = (width.toNat + 7) / 8 ∧ unbe B = unbe value
        ∧ exec (.lpad width value) s = .next { s with out := s.out ++ [.respond .ok (be16 width ++ B)] })

/-- FLIP (41_bitutil.md R124): IllegalCommand where the injector is absent, for empty data and above the limit; otherwise
exactly the bit the draw names is complemented. Nothing else changes but the draws on port RND. That the operation uses
up one whole entry of port RND, and that the position is the drawn number modulo the length, is the model's choice
(log 2). -/
def Obligations.FlipComplementsExactlyOneBit : Prop :=
  ∀ (data : Bytes) (s : State),
    (within data.length (maxFrame s.maxPayload) = false ∨ s.cfgTest = false ∨ data = [] →
      exec (.flip data) s = .next { s with out := s.out ++ [.respond .illegalCommand []] })
    ∧ (within data.length (maxFrame s.maxPayload) = true → s.cfgTest = true → data ≠ [] →
      ∃ (d : Draws) (B : Bytes) (f : Nat), DrawsOf s d ∧ B.length = data.length
        ∧ (∀ p, (bits B)[p]? = if p = d.pos % (8 * data.length) then ((bits data)[p]?).map (!·) else (bits data)[p]?)
        ∧ exec (.flip data) s
            = .next { s with out := s.out ++ [.respond .ok B], rnd := s.rnd.tail, fresh := f })

/-- DIFF (41_bitutil.md R126): the exclusive-or of the halves, byte by byte; odd or too long data, IllegalCommand. Nothing
else changes. -/
def Obligations.DiffRespondsTheMaskOfTheHalves : Prop :=
  ∀ (data : Bytes) (s : State),
    (data.length % 2 = 1 ∨ within data.length ((maxFrame s.maxPayload).map (2 * ·)) = false →
      exec (.diff data) s = .next { s with out := s.out ++ [.respond .illegalCommand []] })
    ∧ (∀ n, data.length = 2 * n → within data.length ((maxFrame s.maxPayload).map (2 * ·)) = true →
      ∃ B : Bytes, B.length = n ∧ (∀ i, i < n → B[i]? = some (data.getD i 0 ^^^ data.getD (n + i) 0))
        ∧ exec (.diff data) s = .next { s with out := s.out ++ [.respond .ok B] })

/-- The mask of two strings of one length marks exactly the positions where they differ; flipping is its own inverse, and
the mask of a string and its flipped copy has exactly one 1, at the flipped position (41_bitutil.md R123, R124, R125,
R126). -/
def Obligations.DiffLocatesTheFlippedBit : Prop :=
  (∀ (a b : Bits), a.length = b.length →
    (diffMask a b).length = a.length
    ∧ ∀ i, i < a.length → (diffMask a b)[i]? = some (decide (a[i]? ≠ b[i]?)))
  ∧ ∀ (b : Bits) (p : Nat), p < b.length →
    flipAt (flipAt b p) p = b
    ∧ (flipAt b p).length = b.length
    ∧ (diffMask b (flipAt b p)).length = b.length
    ∧ ∀ i, i < b.length → (diffMask b (flipAt b p))[i]? = some (decide (i = p))

/-! ### The codec -/

/-- `enc` and `dec` are inverse on frames of 6 or more bytes (42_codec.md R148), and shorter frames are malformed. -/
def Obligations.FrameCodecRoundTrip : Prop :=
  (∀ n c P, dec (enc n c P) = some (n, c, P))
  ∧ (∀ F : Bytes, 6 ≤ F.length → ∃ n c P, dec F = some (n, c, P) ∧ enc n c P = F)
  ∧ (∀ F : Bytes, F.length < 6 → dec F = none)

/-- The frame map with big-endian fields (20_memory.md R50, R56): which bits of number and checksum each header byte holds. -/
def Obligations.FrameHeaderIsBigEndian : Prop :=
  ∀ (n : BitVec 16) (c : BitVec 32) (P : Bytes),
    enc n c P = [n.extractLsb' 8 8, n.extractLsb' 0 8,
      c.extractLsb' 24 8, c.extractLsb' 16 8, c.extractLsb' 8 8, c.extractLsb' 0 8] ++ P
    ∧ unbe ((enc n c P).take 2) = n.toNat
    ∧ unbe (((enc n c P).drop 2).take 4) = c.toNat
    ∧ bits ((enc n c P).take 2) = bstr 16 n.toNat
    ∧ bits (((enc n c P).drop 2).take 4) = bstr 32 c.toNat

/-- ENCS and ENCR (42_codec.md R143, R144): the frame is the response, nothing else changes; too long, IllegalCommand. -/
def Obligations.EncodersRespondTheFrame : Prop :=
  ∀ (n : BitVec 16) (c : BitVec 32) (P : Bytes) (s : State),
    (within P.length s.maxPayload = true →
      exec (.encs n c P) s = .next { s with out := s.out ++ [.respond .ok (be16 n ++ be32 c ++ P)] }
      ∧ exec (.encr n c P) s = .next { s with out := s.out ++ [.respond .ok (be16 n ++ be32 c ++ P)] })
    ∧ (within P.length s.maxPayload = false →
      exec (.encs n c P) s = .next { s with out := s.out ++ [.respond .illegalCommand []] }
      ∧ exec (.encr n c P) s = .next { s with out := s.out ++ [.respond .illegalCommand []] })

/-- DEC (42_codec.md R147, R149): for either role, the result of a frame of 6 or more bytes is number, checksum and payload
in their wire order, that is the frame's own bytes; shorter, MalformedPacket; too long, IllegalCommand. Nothing else
changes. -/
def Obligations.DecRespondsTheFields : Prop :=
  ∀ (role : Role) (F : Bytes) (s : State),
    (within F.length (maxFrame s.maxPayload) = false →
      exec (.dec role F) s = .next { s with out := s.out ++ [.respond .illegalCommand []] })
    ∧ (within F.length (maxFrame s.maxPayload) = true → F.length < 6 →
      exec (.dec role F) s = .next { s with out := s.out ++ [.respond .malformedPacket []] })
    ∧ (within F.length (maxFrame s.maxPayload) = true → 6 ≤ F.length →
      exec (.dec role F) s = .next { s with out := s.out ++ [.respond .ok F] })

/-! ### The timer -/

/-- The transition table of `TS` and `CNT` under TSTART, TCANCEL and TICK (43_timer.md R161); nothing else changes. -/
def Obligations.TimerTransitionTable : Prop :=
  ∀ (d : BitVec 32) (s : State),
    exec (.tstart d) s = .next { s with ts := .running, cnt := d }
    ∧ (s.ts = .idle → exec .tcancel s = .next s ∧ exec .tick s = .next s)
    ∧ (s.ts = .running → exec .tcancel s = .next { s with ts := .cancelled }
        ∧ (s.cnt ≤ 1 → exec .tick s = .next { s with ts := .expired, cnt := 0 })
        ∧ (1 < s.cnt → exec .tick s = .next { s with cnt := s.cnt - 1 }))
    ∧ (s.ts = .expired → exec .tcancel s = .next { s with ts := .idle } ∧ exec .tick s = .next s)
    ∧ (s.ts = .cancelled → exec .tcancel s = .next s ∧ exec .tick s = .next s)

/-- `TS` and `CNT` change in a step only as TSTART with `CFG_TIMEOUT`, TCANCEL, TICK or reset change them
(43_timer.md R161). -/
def Obligations.TimerChangesOnlyAsTheTableSays : Prop :=
  ∀ s t, step s = .next t →
    (t.ts = s.ts ∧ t.cnt = s.cnt)
    ∨ (t.ts = .running ∧ t.cnt = s.cfgTimeout)
    ∨ (t.cnt = s.cnt ∧ (s.ts = .running ∧ t.ts = .cancelled ∨ s.ts = .expired ∧ t.ts = .idle))
    ∨ (∃ rest, s.stimuli = .present .tick [0x13] :: rest ∧ s.ts = .running
        ∧ (s.cnt ≤ 1 ∧ t.ts = .expired ∧ t.cnt = 0 ∨ 1 < s.cnt ∧ t.ts = .running ∧ t.cnt = s.cnt - 1))
    ∨ (∃ rest, s.stimuli = .resetInput :: rest ∧ t.ts = .idle ∧ t.cnt = 0)

/-- After TSTART(d) and `n` TICKs the timer runs while `n < max(d, 1)` and has expired from then on, and nothing but the
timer has changed (43_timer.md R168). -/
def Obligations.CountdownExpiresExactly : Prop :=
  ∀ (s : State) (d : BitVec 32) (n : Nat), ∃ c : BitVec 32,
    execAll (.tstart d :: List.replicate n .tick) s
      = .next { s with ts := if n < max d.toNat 1 then .running else .expired, cnt := c }

/-- TEXPD (43_timer.md R166): answers whether `TS = Expired` and changes nothing. -/
def Obligations.TexpdReportsExpiry : Prop :=
  ∀ s : State, exec .texpd s = .next { s with out := s.out ++ [.respond .ok [if s.ts = .expired then 1 else 0]] }

/-! ### The channel -/

/-- CHSEND (44_channel.md R180): emits the frame, nothing, or the frame with one payload bit complemented, as the draws say,
and changes no register; only the draws on port RND are used up. That a transmission uses up one whole entry of port
RND, and that the position is the drawn number modulo the payload's length, is the model's choice (log 2); so is that
the outcome of a CHSEND run by itself is recorded (log 14). -/
def Obligations.ChsendFollowsTheDraws : Prop :=
  ∀ (port : TxPort) (F : Bytes) (s : State), ∃ (d : Draws) (f : Nat), DrawsOf s d
    ∧ exec (.chsend port F) s = .next { s with
        out := s.out ++ channelEvents s port d F ++ [.outcome (channelOutcome s d F)], rnd := rndAfter s, fresh := f }

/-- What the injector can damage (44_channel.md R182): at most one frame is emitted, of the same length and with the same
6 header bytes, and its payload differs from the frame's in at most one bit; an empty payload never does. -/
def Obligations.InjectorDamagesOnePayloadBitAtMost : Prop :=
  ∀ (port : TxPort) (F : Bytes) (s : State) (d : Draws), 6 ≤ F.length →
    (channelEvents s port d F = [] ∨ ∃ G, channelEvents s port d F = [.emit port G]
      ∧ G.length = F.length ∧ G.take 6 = F.take 6
      ∧ (G = F ∨ 6 < F.length ∧ ∃ p, p < 8 * (F.length - 6) ∧ bits (G.drop 6) = flipAt (bits (F.drop 6)) p))

/-- In a test instance with thresholds strictly between the extremes every frame can be lost and can be delivered, and every
position of its payload can be flipped (44_channel.md R181). That a transmission uses up one whole entry of port RND is the
model's choice (log 2), and so is that the outcome of a CHSEND run by itself is recorded (log 14). -/
def Obligations.EveryChannelOutcomeIsPossible : Prop :=
  ∀ (port : TxPort) (F : Bytes) (s : State), s.cfgTest = true → s.cfgLoss ≠ 65535 → s.cfgCorr ≠ 0 →
    (∃ d, exec (.chsend port F) { s with rnd := [d] } = .next { s with rnd := [], out := s.out ++ [.outcome .lost] })
    ∧ (∃ d, exec (.chsend port F) { s with rnd := [d] }
        = .next { s with rnd := [], out := s.out ++ [.emit port F, .outcome .delivered] })
    ∧ (∀ p, p < 8 * (F.length - 6) → ∃ d G, exec (.chsend port F) { s with rnd := [d] }
        = .next { s with rnd := [], out := s.out ++ [.emit port G, .outcome .corrupted] }
        ∧ G.take 6 = F.take 6 ∧ bits (G.drop 6) = flipAt (bits (F.drop 6)) p)

/-- A corrupted delivery of a packet the block built decodes to the same number and checksum with another payload, and fails
`pkt_ok` at every endpoint with the same `K` (44_channel.md R183). -/
def Obligations.CorruptedDeliveryFailsTheChecksum : Prop :=
  ∀ (port : TxPort) (s : State) (d : Draws) (n : BitVec 16) (P : Bytes), LegalConfig s →
    channelOutcome s d (enc n (pktCk s.k P) P) = .corrupted →
    ∃ P' p, channelEvents s port d (enc n (pktCk s.k P) P) = [.emit port (enc n (pktCk s.k P) P')]
      ∧ p < 8 * P.length ∧ bits P' = flipAt (bits P) p
      ∧ pktOk s.k (pktCk s.k P) P' = false

/-- The draws reach no register and no delivery: whatever port RND answers, an operation leaves the same registers and
delivers the same payloads (44_channel.md R184; 00_scope.md R10). -/
def Obligations.DrawsReachNoRegister : Prop :=
  ∀ (i : Instr) (s : State) (rnd' : List Draws) (fresh' : Nat) (t t' : State),
    exec i s = .next t → exec i { s with rnd := rnd', fresh := fresh' } = .next t' →
    protocolRegisters t = protocolRegisters t' ∧ t.params = t'.params ∧ deliveries t.out = deliveries t'.out

/-! ### The sender -/

/-- SEND in AwaitingCall (45_sender.md R191): the frame numbered with the sequence bit goes through the channel, is kept in
`LAST`, the timer is armed and the sender awaits the ACK; nothing else changes. The bytes of `LAST` above the frame hold
no specified value (10_state.md R26; log 6). That a transmission uses up one whole entry of port RND, and that the flip
position is the drawn number modulo the payload's length, is the model's choice (log 2). -/
def Obligations.SendTransmitsKeepsAndArms : Prop :=
  ∀ (P : Bytes) (s : State), within P.length s.maxPayload = true → s.halt = false → s.ss.phase = .awaitingCall →
    ∃ (d : Draws) (m : Memory) (f : Nat), DrawsOf s d
      ∧ (∀ a, m.read a = (enc (zext16 s.ss.bit) (pktCk s.k P) P)[a]?)
      ∧ exec (.send P) s = .next { s with
          ss := ⟨.awaitingAck, s.ss.bit⟩, ts := .running, cnt := s.cfgTimeout,
          last := m, lastLen := P.length + 6, lastValid := true,
          out := s.out ++ channelEvents s .txs d (enc (zext16 s.ss.bit) (pktCk s.k P) P)
            ++ [.respond .ok [outcomeByte (channelOutcome s d (enc (zext16 s.ss.bit) (pktCk s.k P) P))]],
          rnd := rndAfter s, fresh := f }

/-- SEND refused, in the order of 60_exceptions.md R259: too long, IllegalCommand; halted, Halted; awaiting an ACK,
ProtocolViolation with `ERR.PV` set. Nothing else changes (45_sender.md R192, 47_session.md R242). -/
def Obligations.SendIsRefusedWithItsReason : Prop :=
  ∀ (P : Bytes) (s : State),
    (within P.length s.maxPayload = false →
      exec (.send P) s = .next { s with out := s.out ++ [.respond .illegalCommand []] })
    ∧ (within P.length s.maxPayload = true → s.halt = true →
      exec (.send P) s = .next { s with out := s.out ++ [.respond .halted []] })
    ∧ (within P.length s.maxPayload = true → s.halt = false → s.ss.phase = .awaitingAck →
      exec (.send P) s = .next { s with errPv := true, out := s.out ++ [.respond .protocolViolation []] })

/-- RXACK, the accepting branch (45_sender.md R194): the timer is cancelled, the sequence bit toggles, nothing is emitted or
delivered and nothing else changes. -/
def Obligations.RxackAcceptsTheMatchingAck : Prop :=
  ∀ (c : BitVec 32) (P : Bytes) (s : State),
    within (P.length + 6) (maxFrame s.maxPayload) = true → s.halt = false → s.ss.phase = .awaitingAck →
    pktOk s.k c P = true →
    exec (.rxack (enc (zext16 s.ss.bit) c P)) s = .next { s with
      ss := ⟨.awaitingCall, ~~~s.ss.bit⟩,
      ts := (match s.ts with | .running => .cancelled | .expired => .idle | .idle => .idle | .cancelled => .cancelled),
      out := s.out ++ [.respond .ok [0x00]] }

/-- RXACK, every other branch (45_sender.md R193, R195; 60_exceptions.md R259): too long, halted, not awaiting, malformed,
checksum invalid, wrong number. Only the response is added: every register and the timer stay as they are. -/
def Obligations.RxackIgnoresEverythingElse : Prop :=
  ∀ (F : Bytes) (s : State),
    (within F.length (maxFrame s.maxPayload) = false →
      exec (.rxack F) s = .next { s with out := s.out ++ [.respond .illegalCommand []] })
    ∧ (within F.length (maxFrame s.maxPayload) = true → s.halt = true →
      exec (.rxack F) s = .next { s with out := s.out ++ [.respond .halted []] })
    ∧ (within F.length (maxFrame s.maxPayload) = true → s.halt = false → s.ss.phase = .awaitingCall →
      exec (.rxack F) s = .next { s with out := s.out ++ [.respond .ok [0x01]] })
    ∧ (within F.length (maxFrame s.maxPayload) = true → s.halt = false → s.ss.phase = .awaitingAck →
      (F.length < 6 → exec (.rxack F) s = .next { s with out := s.out ++ [.respond .malformedPacket []] })
      ∧ ∀ n c P, F = enc n c P →
        (pktOk s.k c P = false →
          exec (.rxack F) s = .next { s with out := s.out ++ [.respond .checksumMismatch []] })
        ∧ (pktOk s.k c P = true → n ≠ zext16 s.ss.bit →
          exec (.rxack F) s = .next { s with out := s.out ++ [.respond .ok [0x02]] }))

/-- TMO (45_sender.md R196): where it is enabled, the frame `LAST` holds goes through the channel again, bit-identical, and the
timer is re-armed; `SS` and `LAST` stay. Where it is not enabled nothing happens (log 9). That a transmission uses up one
whole entry of port RND, and that the flip position is the drawn number modulo the payload's length, is the model's choice
(log 2). -/
def Obligations.TmoRetransmitsTheLastFrame : Prop :=
  (∀ (F : Bytes) (s : State), s.halt = false → s.ss.phase = .awaitingAck → s.ts = .expired → LastHolds s F →
    within F.length (maxFrame s.maxPayload) = true →
    ∃ (d : Draws) (f : Nat), DrawsOf s d
      ∧ exec .tmo s = .next { s with
          ts := .running, cnt := s.cfgTimeout,
          out := s.out ++ channelEvents s .txs d F ++ [.outcome (channelOutcome s d F)],
          rnd := rndAfter s, fresh := f })
  ∧ (∀ s : State, ¬ (s.halt = false ∧ s.ss.phase = .awaitingAck ∧ s.ts = .expired) → exec .tmo s = .next s)

/-- Only an accepted SEND writes `LAST`, and only reset otherwise changes it (10_state.md R26, 45_sender.md R198): the
frame a SEND kept stays until the next accepted SEND. -/
def Obligations.OnlyAcceptedSendWritesLast : Prop :=
  ∀ s t, step s = .next t → (t.last, t.lastLen, t.lastValid) ≠ (s.last, s.lastLen, s.lastValid) →
    (∃ rest, s.stimuli = .resetInput :: rest)
    ∨ ∃ P rest, s.stimuli = .present .cmd (0x10 :: P) :: rest ∧ s.halt = false ∧ s.ss.phase = .awaitingCall
        ∧ LastHolds t (enc (zext16 s.ss.bit) (pktCk s.k P) P)

/-- The sequence bit changes only when a valid ACK with its number is accepted while the sender awaits one, or by reset
(10_state.md R22, 45_sender.md R194). -/
def Obligations.SequenceBitChangesOnlyOnAcceptedAck : Prop :=
  ∀ s t, step s = .next t → t.ss.bit ≠ s.ss.bit →
    (∃ rest, s.stimuli = .resetInput :: rest)
    ∨ ∃ c P rest, s.stimuli = .present .rxs (0x11 :: enc (zext16 s.ss.bit) c P) :: rest
        ∧ s.halt = false ∧ s.ss.phase = .awaitingAck ∧ pktOk s.k c P = true ∧ t.ss = ⟨.awaitingCall, ~~~s.ss.bit⟩

/-! ### The receiver -/

/-- RXPKT in every receiver state (46_receiver.md R226): malformed, checksum invalid, duplicate, accepted, and halted; in each
the next `RS`, what goes through the channel to TXR, what is delivered and the response; and a frame above `MAX_FRAME`,
IllegalCommand (30_encoding.md R84). Nothing else changes. That a transmission uses up one whole entry of port RND, and
that the flip position is the drawn number modulo the payload's length, is the model's choice (log 2). -/
def Obligations.RxpktFollowsTheTransitionTable : Prop :=
  ∀ (F : Bytes) (s : State),
    (within F.length (maxFrame s.maxPayload) = false →
      exec (.rxpkt F) s = .next { s with out := s.out ++ [.respond .illegalCommand []] })
    ∧ (within F.length (maxFrame s.maxPayload) = true → s.halt = true →
      exec (.rxpkt F) s = .next { s with out := s.out ++ [.respond .halted []] })
    ∧ (within F.length (maxFrame s.maxPayload) = true → s.halt = false → F.length < 6 →
      exec (.rxpkt F) s = .next { s with out := s.out ++ [.respond .malformedPacket []] })
    ∧ (within F.length (maxFrame s.maxPayload) = true → s.halt = false → ∀ n c P, F = enc n c P → ∃ (d : Draws) (f : Nat), DrawsOf s d
      ∧ (pktOk s.k c P = false →
        exec (.rxpkt F) s = .next { s with
          out := s.out ++ channelEvents s .txr d (enc (zext16 (~~~s.rs)) (pktCk s.k s.ackPayload) s.ackPayload)
            ++ [.respond .checksumMismatch
                [outcomeByte (channelOutcome s d (enc (zext16 (~~~s.rs)) (pktCk s.k s.ackPayload) s.ackPayload))]],
          rnd := rndAfter s, fresh := f })
      ∧ (pktOk s.k c P = true → n ≠ zext16 s.rs →
        exec (.rxpkt F) s = .next { s with
          out := s.out ++ channelEvents s .txr d (enc n (pktCk s.k s.ackPayload) s.ackPayload)
            ++ [.respond .ok [0x01, outcomeByte (channelOutcome s d (enc n (pktCk s.k s.ackPayload) s.ackPayload))]],
          rnd := rndAfter s, fresh := f })
      ∧ (pktOk s.k c P = true → n = zext16 s.rs →
        exec (.rxpkt F) s = .next { s with
          rs := ~~~s.rs,
          out := s.out ++ channelEvents s .txr d (enc n (pktCk s.k s.ackPayload) s.ackPayload)
            ++ [.deliver P, .respond .ok
                [0x00, outcomeByte (channelOutcome s d (enc n (pktCk s.k s.ackPayload) s.ackPayload))]],
          rnd := rndAfter s, fresh := f }))

/-- Duplicate suppression (46_receiver.md R227): after a packet was accepted, the same frame presented `n` more times is
re-acknowledged each time and never delivered again. -/
def Obligations.DuplicatesAreAcknowledgedNotDelivered : Prop :=
  ∀ (c : BitVec 32) (P : Bytes) (s : State) (n : Nat),
    within (P.length + 6) (maxFrame s.maxPayload) = true → s.halt = false → pktOk s.k c P = true →
    ∃ t, execAll (List.replicate (n + 1) (.rxpkt (enc (zext16 s.rs) c P))) s = .next t
      ∧ t.rs = ~~~s.rs
      ∧ deliveries t.out = deliveries s.out ++ [P]
      ∧ (s.cfgTest = false → emittedOn .txr t.out
          = emittedOn .txr s.out
            ++ List.replicate (n + 1) (enc (zext16 s.rs) (pktCk s.k s.ackPayload) s.ackPayload))

/-- `RS` changes, and a payload is delivered, only when a valid packet with the expected number is accepted, or `RS` by reset
(10_state.md R23, 46_receiver.md R224); at most one payload is delivered in a step. -/
def Obligations.DeliveryOnlyOnAcceptedPacket : Prop :=
  ∀ s t, step s = .next t → t.rs ≠ s.rs ∨ deliveries t.out ≠ deliveries s.out →
    (∃ rest, s.stimuli = .resetInput :: rest)
    ∨ ∃ c P rest, s.stimuli = .present .rxr (0x12 :: enc (zext16 s.rs) c P) :: rest
        ∧ s.halt = false ∧ pktOk s.k c P = true ∧ t.rs = ~~~s.rs ∧ deliveries t.out = deliveries s.out ++ [P]

/-! ### The session and the errors -/

/-- SHUTDOWN (47_session.md R240): halts, cancels the timer and responds, in every state; nothing else changes. -/
def Obligations.ShutdownHaltsAndCancels : Prop :=
  ∀ s : State, exec .shutdown s = .next { s with
    halt := true,
    ts := (match s.ts with | .running => .cancelled | .expired => .idle | .idle => .idle | .cancelled => .cancelled),
    out := s.out ++ [.respond .ok []] }

/-- In the halted state no step but reset changes a protocol register, emits a frame or delivers a payload
(47_session.md R242). The premise I5 is kept by every step (StepKeepsTheProtocolInvariant). -/
def Obligations.HaltedBlockStaysSilent : Prop :=
  ∀ s t, ProtocolInv s → s.halt = true → step s = .next t → (∀ rest, s.stimuli ≠ .resetInput :: rest) →
    protocolRegisters t = protocolRegisters s
    ∧ emittedOn .txs t.out = emittedOn .txs s.out ∧ emittedOn .txr t.out = emittedOn .txr s.out
    ∧ deliveries t.out = deliveries s.out

/-- `HALT` and `ERR.PV` are sticky: only reset clears them, only SHUTDOWN sets `HALT`, and only a SEND while awaiting an ACK
sets `ERR.PV` (10_state.md R27, R28). -/
def Obligations.HaltAndErrAreSticky : Prop :=
  ∀ s t, step s = .next t → (∀ rest, s.stimuli ≠ .resetInput :: rest) →
    (s.halt = true → t.halt = true)
    ∧ (s.errPv = true → t.errPv = true)
    ∧ (s.halt = false → t.halt = true → ∃ rest, s.stimuli = .present .cmd [0x14] :: rest)
    ∧ (s.errPv = false → t.errPv = true → ∃ P rest, s.stimuli = .present .cmd (0x10 :: P) :: rest
        ∧ s.halt = false ∧ s.ss.phase = .awaitingAck ∧ within P.length s.maxPayload = true)

/-- An operation that answers an error leaves the sender half, `RS`, `HALT` and the configuration as they were and delivers
nothing; only ProtocolViolation touches `ERR.PV`, and only ChecksumMismatch comes with a transmission
(60_exceptions.md R250, R264). -/
def Obligations.ErrorsChangeNothingElse : Prop :=
  ∀ (i : Instr) (s t : State) (st : Status), exec i s = .next t → st ∈ statuses (t.out.drop s.out.length) → st ≠ .ok →
    senderHalf t = senderHalf s ∧ t.rs = s.rs ∧ t.halt = s.halt ∧ t.params = s.params
    ∧ deliveries t.out = deliveries s.out
    ∧ (st ≠ .protocolViolation → t.errPv = s.errPv)
    ∧ (st ≠ .checksumMismatch → emittedOn .txs t.out = emittedOn .txs s.out ∧ emittedOn .txr t.out = emittedOn .txr s.out)

/-- Every operation of a port CMD, RXS or RXR answers exactly once; TICK and the internal operations never answer
(30_encoding.md R82). Outputs are only ever appended (10_state.md R35). -/
def Obligations.EveryOperationAnswersOnce : Prop :=
  ∀ (i : Instr) (s t : State), exec i s = .next t →
    ∃ o, t.out = s.out ++ o
      ∧ (statuses o).length = if portOf i = some .cmd ∨ portOf i = some .rxs ∨ portOf i = some .rxr then 1 else 0

/-- The configuration is fixed while the block runs (70_reset_and_hazards.md R294): no operation and no step writes it. -/
def Obligations.ConfigurationIsFixed : Prop :=
  (∀ (i : Instr) (s t : State), exec i s = .next t → t.params = s.params)
  ∧ (∀ s t, step s = .next t → t.params = s.params)

/-! ### The two halves and the order of steps -/

/-- The sender half and the receiver half share no state that either writes, except `ERR` and `HALT` (10_state.md R20): the sender's
operations keep `RS` and do the same whatever it holds; RXPKT keeps the sender half and does the same whatever it
holds. -/
def Obligations.HalvesShareNoRegister : Prop :=
  (∀ (i : Instr) (s t : State) (r : BitVec 1),
    ((∃ P, i = .send P) ∨ (∃ F, i = .rxack F) ∨ i = .tmo ∨ i = .tick ∨ (∃ d, i = .tstart d) ∨ i = .tcancel) →
    exec i s = .next t → t.rs = s.rs ∧ exec i { s with rs := r } = .next { t with rs := r })
  ∧ (∀ (F : Bytes) (s t : State) (ss1 : SenderState) (ts1 : TimerState) (cnt1 : BitVec 32) (m1 : Memory) (len1 : Nat)
      (v1 : Bool), exec (.rxpkt F) s = .next t →
    senderHalf t = senderHalf s
    ∧ exec (.rxpkt F) { s with ss := ss1, ts := ts1, cnt := cnt1, last := m1, lastLen := len1, lastValid := v1 }
      = .next { t with ss := ss1, ts := ts1, cnt := cnt1, last := m1, lastLen := len1, lastValid := v1 })

/-- The order of a sender-half step and a receiver-half step never changes the resulting registers
(60_exceptions.md R262). -/
def Obligations.SenderAndReceiverStepsCommute : Prop :=
  ∀ (i : Instr) (F : Bytes) (s t t' : State),
    ((∃ P, i = .send P) ∨ (∃ G, i = .rxack G) ∨ i = .tmo ∨ i = .tick) →
    execAll [i, .rxpkt F] s = .next t → execAll [.rxpkt F, i] s = .next t' →
    protocolRegisters t = protocolRegisters t'

/-- The race of an expiry against a valid ACK (60_exceptions.md R262): with the ACK first TMO is disabled and nothing is
emitted; with the timeout first one extra copy of the kept frame `G` is emitted. Both orders complete, in the same `SS`
and `RS` and with the same deliveries. That a TMO which the ACK has disabled is the identity, so that the first order
runs to its end, is the model's choice (log 9); the rule says it is not taken. -/
def Obligations.ExpiryAgainstAckRace : Prop :=
  ∀ (c : BitVec 32) (P G : Bytes) (s : State),
    within (P.length + 6) (maxFrame s.maxPayload) = true → within G.length (maxFrame s.maxPayload) = true →
    s.halt = false → s.ss.phase = .awaitingAck → s.ts = .expired → pktOk s.k c P = true → LastHolds s G →
    s.cfgTest = false →
    ∃ t t', execAll [.rxack (enc (zext16 s.ss.bit) c P), .tmo] s = .next t
      ∧ execAll [.tmo, .rxack (enc (zext16 s.ss.bit) c P)] s = .next t'
      ∧ t.ss = ⟨.awaitingCall, ~~~s.ss.bit⟩ ∧ t'.ss = t.ss ∧ t.rs = s.rs ∧ t'.rs = s.rs
      ∧ t.ts = .idle ∧ t'.ts = .cancelled ∧ t'.cnt = s.cfgTimeout
      ∧ emittedOn .txs t.out = emittedOn .txs s.out ∧ emittedOn .txs t'.out = emittedOn .txs s.out ++ [G]
      ∧ deliveries t.out = deliveries s.out ∧ deliveries t'.out = deliveries s.out

/-! ### Invariants -/

/-- The state after reset of every legal instance, `State.reset` among them, meets both invariants. -/
def Obligations.ResetMeetsTheInvariants : Prop :=
  (∀ p : Params, ProtocolInv (State.resetWith p) ∧ BufferInv (State.resetWith p))
  ∧ ProtocolInv State.reset ∧ BufferInv State.reset ∧ LegalConfig State.reset

/-- Every step keeps the invariants of 10_state.md R36, from every state that meets them. -/
def Obligations.StepKeepsTheProtocolInvariant : Prop :=
  ∀ s t, ProtocolInv s → step s = .next t → ProtocolInv t

/-- Every step keeps the buffer as it must be (10_state.md R26, 45_sender.md R191, R198): canonical, written exactly below
`LAST_LEN`, holding a frame the sender built once it is valid and the outstanding message's frame while the sender awaits
its ACK. That no byte above `LAST_LEN` is written rests on log 6. -/
def Obligations.StepKeepsTheBufferInvariant : Prop :=
  ∀ s t, BufferInv s → step s = .next t → BufferInv t

/-- No step of the block stops in a state that meets the buffer invariant: nothing in this hardware is stuck or a fault
(93_implementation_defined.md, end of part 2). -/
def Obligations.NoStepStops : Prop :=
  ∀ s, BufferInv s → ∃ t, step s = .next t

/-! ### Two endpoints, and hazards -/

/-- In-order, exactly-once delivery in the loss-free case (46_receiver.md R228, 45_sender.md R199): over `N` round trips between
endpoints in lockstep with equal configuration, every one completes, the payloads are delivered in order, and both
bits have toggled `N` times. -/
def Obligations.LossFreeDeliveryIsInOrderExactlyOnce : Prop :=
  ∀ (Ps : List Bytes) (a b : State),
    LegalConfig a → SameConfig a b → a.cfgTest = false → a.halt = false → b.halt = false →
    a.ss.phase = .awaitingCall → a.ss.bit = b.rs → (∀ P ∈ Ps, within P.length a.maxPayload = true) →
    ∃ a' b', roundTrips Ps a b = some (a', b')
      ∧ deliveries b'.out = deliveries b.out ++ Ps
      ∧ a'.ss.phase = .awaitingCall ∧ a'.ss.bit = b'.rs
      ∧ a'.ss.bit = a.ss.bit + BitVec.ofNat 1 Ps.length

/-- If only one endpoint was reset, so that the expected bit is not the sequence bit, the first message is acknowledged and
lost without any error, and the bits agree again (70_reset_and_hazards.md R306). Without an error: every response of the
round trip at either endpoint is OK (60_exceptions.md R250), and `ERR.PV` of neither changes. -/
def Obligations.MessageIsLostOutOfLockstep : Prop :=
  ∀ (P : Bytes) (a b : State),
    LegalConfig a → SameConfig a b → a.cfgTest = false → a.halt = false → b.halt = false →
    a.ss.phase = .awaitingCall → b.rs = ~~~a.ss.bit → within P.length a.maxPayload = true →
    ∃ a' b', roundTrip P a b = some (a', b')
      ∧ deliveries b'.out = deliveries b.out ∧ a'.ss.phase = .awaitingCall ∧ a'.ss.bit = b'.rs
      ∧ a'.errPv = a.errPv ∧ b'.errPv = b.errPv
      ∧ (∀ st ∈ statuses (a'.out.drop a.out.length), st = .ok)
      ∧ (∀ st ∈ statuses (b'.out.drop b.out.length), st = .ok)

/-- Frames are not typed: the sender's own transmission looped back to it is accepted as its acknowledgement
(70_reset_and_hazards.md R309). -/
def Obligations.OwnTransmissionIsAcceptedAsAck : Prop :=
  ∀ (P : Bytes) (s : State), LegalConfig s → within P.length s.maxPayload = true → s.cfgTest = false → s.halt = false →
    s.ss.phase = .awaitingCall →
    ∃ F t, execEmitting .txs (.send P) s = some ([F], t)
      ∧ ∃ u, exec (.rxack F) t = .next u ∧ u.ss = ⟨.awaitingCall, ~~~s.ss.bit⟩
end

