-- ==== Sys2Proof/Laws/Bits.lean ====
section
/-! SUPPORT. Bit strings and the numbers they spell (00_scope.md R6, R7): lengths, values, and that the conversions between numbers, bit
strings and bytes are inverse. -/

namespace Sys2Proof.Machine

/-! ### `val` -/

@[simp] theorem val_nil : val [] = 0 := rfl

theorem val_foldl (b : Bits) (a : Nat) :
    b.foldl (fun a x => 2 * a + x.toNat) a = a * 2 ^ b.length + val b := by
  induction b generalizing a with
  | nil => simp
  | cons x b ih =>
    unfold val
    simp only [List.foldl_cons, List.length_cons]
    rw [ih, ih (2 * 0 + x.toNat), Nat.pow_succ]
    ring

theorem val_cons (x : Bool) (b : Bits) : val (x :: b) = x.toNat * 2 ^ b.length + val b := by
  rw [val, List.foldl_cons, val_foldl]
  simp

theorem val_append (a b : Bits) : val (a ++ b) = val a * 2 ^ b.length + val b := by
  induction a with
  | nil => simp
  | cons x a ih =>
    rw [List.cons_append, val_cons, val_cons, ih, List.length_append, Nat.pow_add]
    ring

theorem val_lt (b : Bits) : val b < 2 ^ b.length := by
  induction b with
  | nil => simp
  | cons x b ih =>
    rw [val_cons, List.length_cons, Nat.pow_succ]
    cases x <;> simp <;> omega

@[simp] theorem length_zeros (n : Nat) : (zeros n).length = n := by simp [zeros]

@[simp] theorem val_zeros (n : Nat) : val (zeros n) = 0 := by
  induction n with
  | zero => rfl
  | succ n ih => rw [zeros, List.replicate_succ, val_cons]; simpa [zeros] using ih

theorem zeros_append (m n : Nat) : zeros m ++ zeros n = zeros (m + n) := by simp [zeros]

/-- Two bit strings of one length that spell the same number are equal. -/
theorem val_injective {a b : Bits} (hl : a.length = b.length) (h : val a = val b) : a = b := by
  induction a generalizing b with
  | nil => simpa [eq_comm] using hl
  | cons x a ih =>
    cases b with
    | nil => simp at hl
    | cons y b =>
      have hl' : a.length = b.length := by simpa using hl
      rw [val_cons, val_cons, hl'] at h
      have ha := val_lt a
      have hb := val_lt b
      rw [hl'] at ha
      have hxy : x = y := by cases x <;> cases y <;> simp at h ⊢ <;> omega
      subst hxy
      rw [ih hl' (by omega)]

/-! ### `bstr` -/

@[simp] theorem length_bstr (n v : Nat) : (bstr n v).length = n := by simp [bstr]

theorem bstr_succ (n v : Nat) : bstr (n + 1) v = v.testBit n :: bstr n v := by
  unfold bstr
  rw [List.range_succ_eq_map, List.map_cons, List.map_map]
  congr 1
  apply List.map_congr_left
  intro i hi
  have : n - (i + 1) = n - 1 - i := by omega
  simp [this]

theorem val_bstr (n v : Nat) : val (bstr n v) = v % 2 ^ n := by
  induction n with
  | zero => simp [bstr, Nat.mod_one]
  | succ n ih =>
    rw [bstr_succ, val_cons, ih, length_bstr, Nat.mod_pow_succ, Nat.toNat_testBit]
    ring

theorem val_bstr_of_lt {n v : Nat} (h : v < 2 ^ n) : val (bstr n v) = v := by
  rw [val_bstr, Nat.mod_eq_of_lt h]

/-- Every bit string is the bit string of its value. -/
theorem bstr_val (b : Bits) : bstr b.length (val b) = b :=
  val_injective (length_bstr _ _) (val_bstr_of_lt (val_lt b))

theorem bstr_append (m n u v : Nat) (h : v < 2 ^ n) : bstr m u ++ bstr n v = bstr (m + n) (u * 2 ^ n + v) := by
  apply val_injective (by simp)
  rw [val_append, val_bstr, val_bstr_of_lt h, length_bstr, val_bstr, Nat.add_comm m n, Nat.pow_add, Nat.mod_mul,
    Nat.mul_comm u, Nat.mul_add_mod, Nat.mod_eq_of_lt h, Nat.mul_add_div (Nat.two_pow_pos n), Nat.div_eq_of_lt h]
  ring_nf

theorem zeros_eq_bstr (n : Nat) : zeros n = bstr n 0 :=
  val_injective (by simp) (by rw [val_zeros, val_bstr]; simp)

/-! ### Bytes and bits -/

@[simp] theorem bits_nil : bits [] = [] := rfl

@[simp] theorem bits_cons (x : Byte) (B : Bytes) : bits (x :: B) = bstr 8 x.toNat ++ bits B := by simp [bits]

@[simp] theorem bits_append (A B : Bytes) : bits (A ++ B) = bits A ++ bits B := by simp [bits]

@[simp] theorem length_bits (B : Bytes) : (bits B).length = 8 * B.length := by
  induction B with
  | nil => rfl
  | cons x B ih => rw [bits_cons, List.length_append, ih, length_bstr, List.length_cons]; omega

theorem bits_replicate_zero (n : Nat) : bits (List.replicate n 0) = zeros (8 * n) := by
  induction n with
  | zero => rfl
  | succ n ih =>
    rw [List.replicate_succ, bits_cons, ih, show bstr 8 (0 : Byte).toNat = zeros 8 by decide, zeros_append]
    congr 1
    omega

@[simp] theorem length_bytesOf (b : Bits) : (bytesOf b).length = b.length / 8 := by simp [bytesOf]

/-- `bytes_of` takes the first 8 bits as its first byte. -/
theorem bytesOf_append {h t : Bits} (hh : h.length = 8) :
    bytesOf (h ++ t) = BitVec.ofNat 8 (val h) :: bytesOf t := by
  unfold bytesOf
  rw [List.length_append, hh, show (8 + t.length) / 8 = t.length / 8 + 1 by omega, List.range_succ_eq_map, List.map_cons,
    List.map_map]
  congr 1
  · simp [hh]
  · apply List.map_congr_left
    intro i _
    have : 8 * (i + 1) = h.length + 8 * i := by omega
    simp only [Function.comp, Nat.succ_eq_add_one, this]
    rw [List.drop_append, List.drop_of_length_le (by omega), List.nil_append, Nat.add_sub_cancel_left]

/-- Every byte sequence is carried by its bit string. -/
@[simp] theorem bytesOf_bits (B : Bytes) : bytesOf (bits B) = B := by
  induction B with
  | nil => rfl
  | cons x B ih =>
    rw [bits_cons, bytesOf_append (length_bstr _ _), ih, val_bstr_of_lt x.isLt, BitVec.ofNat_toNat, BitVec.setWidth_eq]

/-- Every bit string of whole bytes is the bit string of its bytes. -/
theorem bits_bytesOf {n : Nat} {b : Bits} (h : b.length = 8 * n) : bits (bytesOf b) = b := by
  induction n generalizing b with
  | zero => rw [List.eq_nil_of_length_eq_zero (by omega : b.length = 0)]; rfl
  | succ n ih =>
    have ht : (b.take 8).length = 8 := by simp; omega
    rw [← List.take_append_drop 8 b, bytesOf_append ht, bits_cons, ih (by simp; omega)]
    congr 1
    have hv := val_lt (b.take 8)
    rw [ht] at hv
    rw [BitVec.toNat_ofNat, Nat.mod_eq_of_lt hv]
    conv_rhs => rw [← bstr_val (b.take 8), ht]

/-- Byte sequences with equal bit strings are equal. -/
theorem bits_injective {A B : Bytes} (h : bits A = bits B) : A = B := by
  rw [← bytesOf_bits A, h, bytesOf_bits]

theorem unbe_append (A B : Bytes) : unbe (A ++ B) = unbe A * 2 ^ (8 * B.length) + unbe B := by
  rw [unbe, bits_append, val_append, length_bits]; rfl

@[simp] theorem unbe_nil : unbe [] = 0 := rfl

@[simp] theorem unbe_singleton (x : Byte) : unbe [x] = x.toNat := by
  rw [unbe, bits_cons, bits_nil, List.append_nil, val_bstr_of_lt x.isLt]

theorem unbe_cons (x : Byte) (B : Bytes) : unbe (x :: B) = x.toNat * 2 ^ (8 * B.length) + unbe B := by
  rw [← List.singleton_append, unbe_append, unbe_singleton]

@[simp] theorem length_be16 (v : BitVec 16) : (be16 v).length = 2 := rfl

@[simp] theorem length_be32 (v : BitVec 32) : (be32 v).length = 4 := rfl

@[simp] theorem length_enc (n : BitVec 16) (c : BitVec 32) (P : Bytes) : (enc n c P).length = P.length + 6 := by
  simp [enc]; omega

/-! ### Positions -/

@[simp] theorem length_flipAt (b : Bits) (p : Nat) : (flipAt b p).length = b.length := by simp [flipAt]

/-- `flip` changes exactly its position. -/
theorem getElem?_flipAt (b : Bits) (p i : Nat) :
    (flipAt b p)[i]? = if i = p then (b[i]?).map (!·) else b[i]? := by
  rw [flipAt, List.getElem?_modify]
  by_cases h : i = p
  · subst h; simp
  · rw [if_neg h]; cases b[i]? <;> simp [Ne.symm h]

@[simp] theorem length_diffMask (a b : Bits) : (diffMask a b).length = min a.length b.length := by simp [diffMask]

/-- `mbl v` is the least width that holds `v` (41_bitutil.md R120). -/
theorem lt_mbl_iff (v w : Nat) : w < mbl v ↔ 2 ^ w ≤ v := by
  unfold mbl
  split
  · rename_i h
    subst h
    have := Nat.two_pow_pos w
    omega
  · rename_i h
    rw [Nat.lt_succ_iff, Nat.le_log2 h]

end Sys2Proof.Machine
end

