-- ==== Sys2Proof/Laws/State.lean ====
section
/-! SUPPORT. For each named update of `State`, what it does to each field: the field it writes, and that it leaves every other
one. Cited by simp, so that no proof unfolds a record update. -/

namespace Sys2Proof.Machine

/-! ### `log` -/

@[simp] theorem State.log_ss (s : State) (o : Output) : (s.log o).ss = s.ss := rfl
@[simp] theorem State.log_rs (s : State) (o : Output) : (s.log o).rs = s.rs := rfl
@[simp] theorem State.log_ts (s : State) (o : Output) : (s.log o).ts = s.ts := rfl
@[simp] theorem State.log_cnt (s : State) (o : Output) : (s.log o).cnt = s.cnt := rfl
@[simp] theorem State.log_last (s : State) (o : Output) : (s.log o).last = s.last := rfl
@[simp] theorem State.log_lastLen (s : State) (o : Output) : (s.log o).lastLen = s.lastLen := rfl
@[simp] theorem State.log_lastValid (s : State) (o : Output) : (s.log o).lastValid = s.lastValid := rfl
@[simp] theorem State.log_errPv (s : State) (o : Output) : (s.log o).errPv = s.errPv := rfl
@[simp] theorem State.log_halt (s : State) (o : Output) : (s.log o).halt = s.halt := rfl
@[simp] theorem State.log_cfgK (s : State) (o : Output) : (s.log o).cfgK = s.cfgK := rfl
@[simp] theorem State.log_cfgTimeout (s : State) (o : Output) : (s.log o).cfgTimeout = s.cfgTimeout := rfl
@[simp] theorem State.log_cfgLoss (s : State) (o : Output) : (s.log o).cfgLoss = s.cfgLoss := rfl
@[simp] theorem State.log_cfgCorr (s : State) (o : Output) : (s.log o).cfgCorr = s.cfgCorr := rfl
@[simp] theorem State.log_cfgTest (s : State) (o : Output) : (s.log o).cfgTest = s.cfgTest := rfl
@[simp] theorem State.log_maxPayload (s : State) (o : Output) : (s.log o).maxPayload = s.maxPayload := rfl
@[simp] theorem State.log_ackPayload (s : State) (o : Output) : (s.log o).ackPayload = s.ackPayload := rfl
@[simp] theorem State.log_out (s : State) (o : Output) : (s.log o).out = s.out ++ [o] := rfl
@[simp] theorem State.log_stimuli (s : State) (o : Output) : (s.log o).stimuli = s.stimuli := rfl
@[simp] theorem State.log_rnd (s : State) (o : Output) : (s.log o).rnd = s.rnd := rfl
@[simp] theorem State.log_fresh (s : State) (o : Output) : (s.log o).fresh = s.fresh := rfl

/-! ### `emit` -/

@[simp] theorem State.emit_ss (s : State) (p : TxPort) (F : Bytes) : (s.emit p F).ss = s.ss := rfl
@[simp] theorem State.emit_rs (s : State) (p : TxPort) (F : Bytes) : (s.emit p F).rs = s.rs := rfl
@[simp] theorem State.emit_ts (s : State) (p : TxPort) (F : Bytes) : (s.emit p F).ts = s.ts := rfl
@[simp] theorem State.emit_cnt (s : State) (p : TxPort) (F : Bytes) : (s.emit p F).cnt = s.cnt := rfl
@[simp] theorem State.emit_last (s : State) (p : TxPort) (F : Bytes) : (s.emit p F).last = s.last := rfl
@[simp] theorem State.emit_lastLen (s : State) (p : TxPort) (F : Bytes) : (s.emit p F).lastLen = s.lastLen := rfl
@[simp] theorem State.emit_lastValid (s : State) (p : TxPort) (F : Bytes) : (s.emit p F).lastValid = s.lastValid := rfl
@[simp] theorem State.emit_errPv (s : State) (p : TxPort) (F : Bytes) : (s.emit p F).errPv = s.errPv := rfl
@[simp] theorem State.emit_halt (s : State) (p : TxPort) (F : Bytes) : (s.emit p F).halt = s.halt := rfl
@[simp] theorem State.emit_cfgK (s : State) (p : TxPort) (F : Bytes) : (s.emit p F).cfgK = s.cfgK := rfl
@[simp] theorem State.emit_cfgTimeout (s : State) (p : TxPort) (F : Bytes) : (s.emit p F).cfgTimeout = s.cfgTimeout := rfl
@[simp] theorem State.emit_cfgLoss (s : State) (p : TxPort) (F : Bytes) : (s.emit p F).cfgLoss = s.cfgLoss := rfl
@[simp] theorem State.emit_cfgCorr (s : State) (p : TxPort) (F : Bytes) : (s.emit p F).cfgCorr = s.cfgCorr := rfl
@[simp] theorem State.emit_cfgTest (s : State) (p : TxPort) (F : Bytes) : (s.emit p F).cfgTest = s.cfgTest := rfl
@[simp] theorem State.emit_maxPayload (s : State) (p : TxPort) (F : Bytes) : (s.emit p F).maxPayload = s.maxPayload := rfl
@[simp] theorem State.emit_ackPayload (s : State) (p : TxPort) (F : Bytes) : (s.emit p F).ackPayload = s.ackPayload := rfl
@[simp] theorem State.emit_out (s : State) (p : TxPort) (F : Bytes) : (s.emit p F).out = s.out ++ [.emit p F] := rfl
@[simp] theorem State.emit_stimuli (s : State) (p : TxPort) (F : Bytes) : (s.emit p F).stimuli = s.stimuli := rfl
@[simp] theorem State.emit_rnd (s : State) (p : TxPort) (F : Bytes) : (s.emit p F).rnd = s.rnd := rfl
@[simp] theorem State.emit_fresh (s : State) (p : TxPort) (F : Bytes) : (s.emit p F).fresh = s.fresh := rfl

/-! ### `deliver` -/

@[simp] theorem State.deliver_ss (s : State) (P : Bytes) : (s.deliver P).ss = s.ss := rfl
@[simp] theorem State.deliver_rs (s : State) (P : Bytes) : (s.deliver P).rs = s.rs := rfl
@[simp] theorem State.deliver_ts (s : State) (P : Bytes) : (s.deliver P).ts = s.ts := rfl
@[simp] theorem State.deliver_cnt (s : State) (P : Bytes) : (s.deliver P).cnt = s.cnt := rfl
@[simp] theorem State.deliver_last (s : State) (P : Bytes) : (s.deliver P).last = s.last := rfl
@[simp] theorem State.deliver_lastLen (s : State) (P : Bytes) : (s.deliver P).lastLen = s.lastLen := rfl
@[simp] theorem State.deliver_lastValid (s : State) (P : Bytes) : (s.deliver P).lastValid = s.lastValid := rfl
@[simp] theorem State.deliver_errPv (s : State) (P : Bytes) : (s.deliver P).errPv = s.errPv := rfl
@[simp] theorem State.deliver_halt (s : State) (P : Bytes) : (s.deliver P).halt = s.halt := rfl
@[simp] theorem State.deliver_cfgK (s : State) (P : Bytes) : (s.deliver P).cfgK = s.cfgK := rfl
@[simp] theorem State.deliver_cfgTimeout (s : State) (P : Bytes) : (s.deliver P).cfgTimeout = s.cfgTimeout := rfl
@[simp] theorem State.deliver_cfgLoss (s : State) (P : Bytes) : (s.deliver P).cfgLoss = s.cfgLoss := rfl
@[simp] theorem State.deliver_cfgCorr (s : State) (P : Bytes) : (s.deliver P).cfgCorr = s.cfgCorr := rfl
@[simp] theorem State.deliver_cfgTest (s : State) (P : Bytes) : (s.deliver P).cfgTest = s.cfgTest := rfl
@[simp] theorem State.deliver_maxPayload (s : State) (P : Bytes) : (s.deliver P).maxPayload = s.maxPayload := rfl
@[simp] theorem State.deliver_ackPayload (s : State) (P : Bytes) : (s.deliver P).ackPayload = s.ackPayload := rfl
@[simp] theorem State.deliver_out (s : State) (P : Bytes) : (s.deliver P).out = s.out ++ [.deliver P] := rfl
@[simp] theorem State.deliver_stimuli (s : State) (P : Bytes) : (s.deliver P).stimuli = s.stimuli := rfl
@[simp] theorem State.deliver_rnd (s : State) (P : Bytes) : (s.deliver P).rnd = s.rnd := rfl
@[simp] theorem State.deliver_fresh (s : State) (P : Bytes) : (s.deliver P).fresh = s.fresh := rfl

/-! ### `respond` -/

@[simp] theorem State.respond_ss (s : State) (st : Status) (r : Bytes) : (s.respond st r).ss = s.ss := rfl
@[simp] theorem State.respond_rs (s : State) (st : Status) (r : Bytes) : (s.respond st r).rs = s.rs := rfl
@[simp] theorem State.respond_ts (s : State) (st : Status) (r : Bytes) : (s.respond st r).ts = s.ts := rfl
@[simp] theorem State.respond_cnt (s : State) (st : Status) (r : Bytes) : (s.respond st r).cnt = s.cnt := rfl
@[simp] theorem State.respond_last (s : State) (st : Status) (r : Bytes) : (s.respond st r).last = s.last := rfl
@[simp] theorem State.respond_lastLen (s : State) (st : Status) (r : Bytes) : (s.respond st r).lastLen = s.lastLen := rfl
@[simp] theorem State.respond_lastValid (s : State) (st : Status) (r : Bytes) : (s.respond st r).lastValid = s.lastValid := rfl
@[simp] theorem State.respond_errPv (s : State) (st : Status) (r : Bytes) : (s.respond st r).errPv = s.errPv := rfl
@[simp] theorem State.respond_halt (s : State) (st : Status) (r : Bytes) : (s.respond st r).halt = s.halt := rfl
@[simp] theorem State.respond_cfgK (s : State) (st : Status) (r : Bytes) : (s.respond st r).cfgK = s.cfgK := rfl
@[simp] theorem State.respond_cfgTimeout (s : State) (st : Status) (r : Bytes) : (s.respond st r).cfgTimeout = s.cfgTimeout := rfl
@[simp] theorem State.respond_cfgLoss (s : State) (st : Status) (r : Bytes) : (s.respond st r).cfgLoss = s.cfgLoss := rfl
@[simp] theorem State.respond_cfgCorr (s : State) (st : Status) (r : Bytes) : (s.respond st r).cfgCorr = s.cfgCorr := rfl
@[simp] theorem State.respond_cfgTest (s : State) (st : Status) (r : Bytes) : (s.respond st r).cfgTest = s.cfgTest := rfl
@[simp] theorem State.respond_maxPayload (s : State) (st : Status) (r : Bytes) : (s.respond st r).maxPayload = s.maxPayload := rfl
@[simp] theorem State.respond_ackPayload (s : State) (st : Status) (r : Bytes) : (s.respond st r).ackPayload = s.ackPayload := rfl
@[simp] theorem State.respond_out (s : State) (st : Status) (r : Bytes) : (s.respond st r).out = s.out ++ [.respond st r] := rfl
@[simp] theorem State.respond_stimuli (s : State) (st : Status) (r : Bytes) : (s.respond st r).stimuli = s.stimuli := rfl
@[simp] theorem State.respond_rnd (s : State) (st : Status) (r : Bytes) : (s.respond st r).rnd = s.rnd := rfl
@[simp] theorem State.respond_fresh (s : State) (st : Status) (r : Bytes) : (s.respond st r).fresh = s.fresh := rfl

/-! ### `raise` -/

@[simp] theorem State.raise_ss (s : State) (e : Status) (i : Bytes) : (s.raise e i).ss = s.ss := rfl
@[simp] theorem State.raise_rs (s : State) (e : Status) (i : Bytes) : (s.raise e i).rs = s.rs := rfl
@[simp] theorem State.raise_ts (s : State) (e : Status) (i : Bytes) : (s.raise e i).ts = s.ts := rfl
@[simp] theorem State.raise_cnt (s : State) (e : Status) (i : Bytes) : (s.raise e i).cnt = s.cnt := rfl
@[simp] theorem State.raise_last (s : State) (e : Status) (i : Bytes) : (s.raise e i).last = s.last := rfl
@[simp] theorem State.raise_lastLen (s : State) (e : Status) (i : Bytes) : (s.raise e i).lastLen = s.lastLen := rfl
@[simp] theorem State.raise_lastValid (s : State) (e : Status) (i : Bytes) : (s.raise e i).lastValid = s.lastValid := rfl
@[simp] theorem State.raise_errPv (s : State) (e : Status) (i : Bytes) : (s.raise e i).errPv = s.errPv := rfl
@[simp] theorem State.raise_halt (s : State) (e : Status) (i : Bytes) : (s.raise e i).halt = s.halt := rfl
@[simp] theorem State.raise_cfgK (s : State) (e : Status) (i : Bytes) : (s.raise e i).cfgK = s.cfgK := rfl
@[simp] theorem State.raise_cfgTimeout (s : State) (e : Status) (i : Bytes) : (s.raise e i).cfgTimeout = s.cfgTimeout := rfl
@[simp] theorem State.raise_cfgLoss (s : State) (e : Status) (i : Bytes) : (s.raise e i).cfgLoss = s.cfgLoss := rfl
@[simp] theorem State.raise_cfgCorr (s : State) (e : Status) (i : Bytes) : (s.raise e i).cfgCorr = s.cfgCorr := rfl
@[simp] theorem State.raise_cfgTest (s : State) (e : Status) (i : Bytes) : (s.raise e i).cfgTest = s.cfgTest := rfl
@[simp] theorem State.raise_maxPayload (s : State) (e : Status) (i : Bytes) : (s.raise e i).maxPayload = s.maxPayload := rfl
@[simp] theorem State.raise_ackPayload (s : State) (e : Status) (i : Bytes) : (s.raise e i).ackPayload = s.ackPayload := rfl
@[simp] theorem State.raise_out (s : State) (e : Status) (i : Bytes) : (s.raise e i).out = s.out ++ [.respond e i] := rfl
@[simp] theorem State.raise_stimuli (s : State) (e : Status) (i : Bytes) : (s.raise e i).stimuli = s.stimuli := rfl
@[simp] theorem State.raise_rnd (s : State) (e : Status) (i : Bytes) : (s.raise e i).rnd = s.rnd := rfl
@[simp] theorem State.raise_fresh (s : State) (e : Status) (i : Bytes) : (s.raise e i).fresh = s.fresh := rfl

/-! ### `illegal` -/

@[simp] theorem State.illegal_ss (s : State) : (s.illegal).ss = s.ss := rfl
@[simp] theorem State.illegal_rs (s : State) : (s.illegal).rs = s.rs := rfl
@[simp] theorem State.illegal_ts (s : State) : (s.illegal).ts = s.ts := rfl
@[simp] theorem State.illegal_cnt (s : State) : (s.illegal).cnt = s.cnt := rfl
@[simp] theorem State.illegal_last (s : State) : (s.illegal).last = s.last := rfl
@[simp] theorem State.illegal_lastLen (s : State) : (s.illegal).lastLen = s.lastLen := rfl
@[simp] theorem State.illegal_lastValid (s : State) : (s.illegal).lastValid = s.lastValid := rfl
@[simp] theorem State.illegal_errPv (s : State) : (s.illegal).errPv = s.errPv := rfl
@[simp] theorem State.illegal_halt (s : State) : (s.illegal).halt = s.halt := rfl
@[simp] theorem State.illegal_cfgK (s : State) : (s.illegal).cfgK = s.cfgK := rfl
@[simp] theorem State.illegal_cfgTimeout (s : State) : (s.illegal).cfgTimeout = s.cfgTimeout := rfl
@[simp] theorem State.illegal_cfgLoss (s : State) : (s.illegal).cfgLoss = s.cfgLoss := rfl
@[simp] theorem State.illegal_cfgCorr (s : State) : (s.illegal).cfgCorr = s.cfgCorr := rfl
@[simp] theorem State.illegal_cfgTest (s : State) : (s.illegal).cfgTest = s.cfgTest := rfl
@[simp] theorem State.illegal_maxPayload (s : State) : (s.illegal).maxPayload = s.maxPayload := rfl
@[simp] theorem State.illegal_ackPayload (s : State) : (s.illegal).ackPayload = s.ackPayload := rfl
@[simp] theorem State.illegal_out (s : State) : (s.illegal).out = s.out ++ [.respond .illegalCommand []] := rfl
@[simp] theorem State.illegal_stimuli (s : State) : (s.illegal).stimuli = s.stimuli := rfl
@[simp] theorem State.illegal_rnd (s : State) : (s.illegal).rnd = s.rnd := rfl
@[simp] theorem State.illegal_fresh (s : State) : (s.illegal).fresh = s.fresh := rfl

/-! ### `setSs` -/

@[simp] theorem State.setSs_ss (s : State) (p : Phase) (b : BitVec 1) : (s.setSs p b).ss = ⟨p, b⟩ := rfl
@[simp] theorem State.setSs_rs (s : State) (p : Phase) (b : BitVec 1) : (s.setSs p b).rs = s.rs := rfl
@[simp] theorem State.setSs_ts (s : State) (p : Phase) (b : BitVec 1) : (s.setSs p b).ts = s.ts := rfl
@[simp] theorem State.setSs_cnt (s : State) (p : Phase) (b : BitVec 1) : (s.setSs p b).cnt = s.cnt := rfl
@[simp] theorem State.setSs_last (s : State) (p : Phase) (b : BitVec 1) : (s.setSs p b).last = s.last := rfl
@[simp] theorem State.setSs_lastLen (s : State) (p : Phase) (b : BitVec 1) : (s.setSs p b).lastLen = s.lastLen := rfl
@[simp] theorem State.setSs_lastValid (s : State) (p : Phase) (b : BitVec 1) : (s.setSs p b).lastValid = s.lastValid := rfl
@[simp] theorem State.setSs_errPv (s : State) (p : Phase) (b : BitVec 1) : (s.setSs p b).errPv = s.errPv := rfl
@[simp] theorem State.setSs_halt (s : State) (p : Phase) (b : BitVec 1) : (s.setSs p b).halt = s.halt := rfl
@[simp] theorem State.setSs_cfgK (s : State) (p : Phase) (b : BitVec 1) : (s.setSs p b).cfgK = s.cfgK := rfl
@[simp] theorem State.setSs_cfgTimeout (s : State) (p : Phase) (b : BitVec 1) : (s.setSs p b).cfgTimeout = s.cfgTimeout := rfl
@[simp] theorem State.setSs_cfgLoss (s : State) (p : Phase) (b : BitVec 1) : (s.setSs p b).cfgLoss = s.cfgLoss := rfl
@[simp] theorem State.setSs_cfgCorr (s : State) (p : Phase) (b : BitVec 1) : (s.setSs p b).cfgCorr = s.cfgCorr := rfl
@[simp] theorem State.setSs_cfgTest (s : State) (p : Phase) (b : BitVec 1) : (s.setSs p b).cfgTest = s.cfgTest := rfl
@[simp] theorem State.setSs_maxPayload (s : State) (p : Phase) (b : BitVec 1) : (s.setSs p b).maxPayload = s.maxPayload := rfl
@[simp] theorem State.setSs_ackPayload (s : State) (p : Phase) (b : BitVec 1) : (s.setSs p b).ackPayload = s.ackPayload := rfl
@[simp] theorem State.setSs_out (s : State) (p : Phase) (b : BitVec 1) : (s.setSs p b).out = s.out := rfl
@[simp] theorem State.setSs_stimuli (s : State) (p : Phase) (b : BitVec 1) : (s.setSs p b).stimuli = s.stimuli := rfl
@[simp] theorem State.setSs_rnd (s : State) (p : Phase) (b : BitVec 1) : (s.setSs p b).rnd = s.rnd := rfl
@[simp] theorem State.setSs_fresh (s : State) (p : Phase) (b : BitVec 1) : (s.setSs p b).fresh = s.fresh := rfl

/-! ### `setRs` -/

@[simp] theorem State.setRs_ss (s : State) (e : BitVec 1) : (s.setRs e).ss = s.ss := rfl
@[simp] theorem State.setRs_rs (s : State) (e : BitVec 1) : (s.setRs e).rs = e := rfl
@[simp] theorem State.setRs_ts (s : State) (e : BitVec 1) : (s.setRs e).ts = s.ts := rfl
@[simp] theorem State.setRs_cnt (s : State) (e : BitVec 1) : (s.setRs e).cnt = s.cnt := rfl
@[simp] theorem State.setRs_last (s : State) (e : BitVec 1) : (s.setRs e).last = s.last := rfl
@[simp] theorem State.setRs_lastLen (s : State) (e : BitVec 1) : (s.setRs e).lastLen = s.lastLen := rfl
@[simp] theorem State.setRs_lastValid (s : State) (e : BitVec 1) : (s.setRs e).lastValid = s.lastValid := rfl
@[simp] theorem State.setRs_errPv (s : State) (e : BitVec 1) : (s.setRs e).errPv = s.errPv := rfl
@[simp] theorem State.setRs_halt (s : State) (e : BitVec 1) : (s.setRs e).halt = s.halt := rfl
@[simp] theorem State.setRs_cfgK (s : State) (e : BitVec 1) : (s.setRs e).cfgK = s.cfgK := rfl
@[simp] theorem State.setRs_cfgTimeout (s : State) (e : BitVec 1) : (s.setRs e).cfgTimeout = s.cfgTimeout := rfl
@[simp] theorem State.setRs_cfgLoss (s : State) (e : BitVec 1) : (s.setRs e).cfgLoss = s.cfgLoss := rfl
@[simp] theorem State.setRs_cfgCorr (s : State) (e : BitVec 1) : (s.setRs e).cfgCorr = s.cfgCorr := rfl
@[simp] theorem State.setRs_cfgTest (s : State) (e : BitVec 1) : (s.setRs e).cfgTest = s.cfgTest := rfl
@[simp] theorem State.setRs_maxPayload (s : State) (e : BitVec 1) : (s.setRs e).maxPayload = s.maxPayload := rfl
@[simp] theorem State.setRs_ackPayload (s : State) (e : BitVec 1) : (s.setRs e).ackPayload = s.ackPayload := rfl
@[simp] theorem State.setRs_out (s : State) (e : BitVec 1) : (s.setRs e).out = s.out := rfl
@[simp] theorem State.setRs_stimuli (s : State) (e : BitVec 1) : (s.setRs e).stimuli = s.stimuli := rfl
@[simp] theorem State.setRs_rnd (s : State) (e : BitVec 1) : (s.setRs e).rnd = s.rnd := rfl
@[simp] theorem State.setRs_fresh (s : State) (e : BitVec 1) : (s.setRs e).fresh = s.fresh := rfl

/-! ### `setErrPv` -/

@[simp] theorem State.setErrPv_ss (s : State) : (s.setErrPv).ss = s.ss := rfl
@[simp] theorem State.setErrPv_rs (s : State) : (s.setErrPv).rs = s.rs := rfl
@[simp] theorem State.setErrPv_ts (s : State) : (s.setErrPv).ts = s.ts := rfl
@[simp] theorem State.setErrPv_cnt (s : State) : (s.setErrPv).cnt = s.cnt := rfl
@[simp] theorem State.setErrPv_last (s : State) : (s.setErrPv).last = s.last := rfl
@[simp] theorem State.setErrPv_lastLen (s : State) : (s.setErrPv).lastLen = s.lastLen := rfl
@[simp] theorem State.setErrPv_lastValid (s : State) : (s.setErrPv).lastValid = s.lastValid := rfl
@[simp] theorem State.setErrPv_errPv (s : State) : (s.setErrPv).errPv = true := rfl
@[simp] theorem State.setErrPv_halt (s : State) : (s.setErrPv).halt = s.halt := rfl
@[simp] theorem State.setErrPv_cfgK (s : State) : (s.setErrPv).cfgK = s.cfgK := rfl
@[simp] theorem State.setErrPv_cfgTimeout (s : State) : (s.setErrPv).cfgTimeout = s.cfgTimeout := rfl
@[simp] theorem State.setErrPv_cfgLoss (s : State) : (s.setErrPv).cfgLoss = s.cfgLoss := rfl
@[simp] theorem State.setErrPv_cfgCorr (s : State) : (s.setErrPv).cfgCorr = s.cfgCorr := rfl
@[simp] theorem State.setErrPv_cfgTest (s : State) : (s.setErrPv).cfgTest = s.cfgTest := rfl
@[simp] theorem State.setErrPv_maxPayload (s : State) : (s.setErrPv).maxPayload = s.maxPayload := rfl
@[simp] theorem State.setErrPv_ackPayload (s : State) : (s.setErrPv).ackPayload = s.ackPayload := rfl
@[simp] theorem State.setErrPv_out (s : State) : (s.setErrPv).out = s.out := rfl
@[simp] theorem State.setErrPv_stimuli (s : State) : (s.setErrPv).stimuli = s.stimuli := rfl
@[simp] theorem State.setErrPv_rnd (s : State) : (s.setErrPv).rnd = s.rnd := rfl
@[simp] theorem State.setErrPv_fresh (s : State) : (s.setErrPv).fresh = s.fresh := rfl

/-! ### `setHalt` -/

@[simp] theorem State.setHalt_ss (s : State) : (s.setHalt).ss = s.ss := rfl
@[simp] theorem State.setHalt_rs (s : State) : (s.setHalt).rs = s.rs := rfl
@[simp] theorem State.setHalt_ts (s : State) : (s.setHalt).ts = s.ts := rfl
@[simp] theorem State.setHalt_cnt (s : State) : (s.setHalt).cnt = s.cnt := rfl
@[simp] theorem State.setHalt_last (s : State) : (s.setHalt).last = s.last := rfl
@[simp] theorem State.setHalt_lastLen (s : State) : (s.setHalt).lastLen = s.lastLen := rfl
@[simp] theorem State.setHalt_lastValid (s : State) : (s.setHalt).lastValid = s.lastValid := rfl
@[simp] theorem State.setHalt_errPv (s : State) : (s.setHalt).errPv = s.errPv := rfl
@[simp] theorem State.setHalt_halt (s : State) : (s.setHalt).halt = true := rfl
@[simp] theorem State.setHalt_cfgK (s : State) : (s.setHalt).cfgK = s.cfgK := rfl
@[simp] theorem State.setHalt_cfgTimeout (s : State) : (s.setHalt).cfgTimeout = s.cfgTimeout := rfl
@[simp] theorem State.setHalt_cfgLoss (s : State) : (s.setHalt).cfgLoss = s.cfgLoss := rfl
@[simp] theorem State.setHalt_cfgCorr (s : State) : (s.setHalt).cfgCorr = s.cfgCorr := rfl
@[simp] theorem State.setHalt_cfgTest (s : State) : (s.setHalt).cfgTest = s.cfgTest := rfl
@[simp] theorem State.setHalt_maxPayload (s : State) : (s.setHalt).maxPayload = s.maxPayload := rfl
@[simp] theorem State.setHalt_ackPayload (s : State) : (s.setHalt).ackPayload = s.ackPayload := rfl
@[simp] theorem State.setHalt_out (s : State) : (s.setHalt).out = s.out := rfl
@[simp] theorem State.setHalt_stimuli (s : State) : (s.setHalt).stimuli = s.stimuli := rfl
@[simp] theorem State.setHalt_rnd (s : State) : (s.setHalt).rnd = s.rnd := rfl
@[simp] theorem State.setHalt_fresh (s : State) : (s.setHalt).fresh = s.fresh := rfl

/-! ### `tstart` -/

@[simp] theorem State.tstart_ss (s : State) (d : BitVec 32) : (s.tstart d).ss = s.ss := rfl
@[simp] theorem State.tstart_rs (s : State) (d : BitVec 32) : (s.tstart d).rs = s.rs := rfl
@[simp] theorem State.tstart_ts (s : State) (d : BitVec 32) : (s.tstart d).ts = .running := rfl
@[simp] theorem State.tstart_cnt (s : State) (d : BitVec 32) : (s.tstart d).cnt = d := rfl
@[simp] theorem State.tstart_last (s : State) (d : BitVec 32) : (s.tstart d).last = s.last := rfl
@[simp] theorem State.tstart_lastLen (s : State) (d : BitVec 32) : (s.tstart d).lastLen = s.lastLen := rfl
@[simp] theorem State.tstart_lastValid (s : State) (d : BitVec 32) : (s.tstart d).lastValid = s.lastValid := rfl
@[simp] theorem State.tstart_errPv (s : State) (d : BitVec 32) : (s.tstart d).errPv = s.errPv := rfl
@[simp] theorem State.tstart_halt (s : State) (d : BitVec 32) : (s.tstart d).halt = s.halt := rfl
@[simp] theorem State.tstart_cfgK (s : State) (d : BitVec 32) : (s.tstart d).cfgK = s.cfgK := rfl
@[simp] theorem State.tstart_cfgTimeout (s : State) (d : BitVec 32) : (s.tstart d).cfgTimeout = s.cfgTimeout := rfl
@[simp] theorem State.tstart_cfgLoss (s : State) (d : BitVec 32) : (s.tstart d).cfgLoss = s.cfgLoss := rfl
@[simp] theorem State.tstart_cfgCorr (s : State) (d : BitVec 32) : (s.tstart d).cfgCorr = s.cfgCorr := rfl
@[simp] theorem State.tstart_cfgTest (s : State) (d : BitVec 32) : (s.tstart d).cfgTest = s.cfgTest := rfl
@[simp] theorem State.tstart_maxPayload (s : State) (d : BitVec 32) : (s.tstart d).maxPayload = s.maxPayload := rfl
@[simp] theorem State.tstart_ackPayload (s : State) (d : BitVec 32) : (s.tstart d).ackPayload = s.ackPayload := rfl
@[simp] theorem State.tstart_out (s : State) (d : BitVec 32) : (s.tstart d).out = s.out := rfl
@[simp] theorem State.tstart_stimuli (s : State) (d : BitVec 32) : (s.tstart d).stimuli = s.stimuli := rfl
@[simp] theorem State.tstart_rnd (s : State) (d : BitVec 32) : (s.tstart d).rnd = s.rnd := rfl
@[simp] theorem State.tstart_fresh (s : State) (d : BitVec 32) : (s.tstart d).fresh = s.fresh := rfl

/-! ### `tcancel` -/

@[simp] theorem State.tcancel_ss (s : State) : (s.tcancel).ss = s.ss := rfl
@[simp] theorem State.tcancel_rs (s : State) : (s.tcancel).rs = s.rs := rfl
@[simp] theorem State.tcancel_ts (s : State) : (s.tcancel).ts = cancelledTimer s.ts := rfl
@[simp] theorem State.tcancel_cnt (s : State) : (s.tcancel).cnt = s.cnt := rfl
@[simp] theorem State.tcancel_last (s : State) : (s.tcancel).last = s.last := rfl
@[simp] theorem State.tcancel_lastLen (s : State) : (s.tcancel).lastLen = s.lastLen := rfl
@[simp] theorem State.tcancel_lastValid (s : State) : (s.tcancel).lastValid = s.lastValid := rfl
@[simp] theorem State.tcancel_errPv (s : State) : (s.tcancel).errPv = s.errPv := rfl
@[simp] theorem State.tcancel_halt (s : State) : (s.tcancel).halt = s.halt := rfl
@[simp] theorem State.tcancel_cfgK (s : State) : (s.tcancel).cfgK = s.cfgK := rfl
@[simp] theorem State.tcancel_cfgTimeout (s : State) : (s.tcancel).cfgTimeout = s.cfgTimeout := rfl
@[simp] theorem State.tcancel_cfgLoss (s : State) : (s.tcancel).cfgLoss = s.cfgLoss := rfl
@[simp] theorem State.tcancel_cfgCorr (s : State) : (s.tcancel).cfgCorr = s.cfgCorr := rfl
@[simp] theorem State.tcancel_cfgTest (s : State) : (s.tcancel).cfgTest = s.cfgTest := rfl
@[simp] theorem State.tcancel_maxPayload (s : State) : (s.tcancel).maxPayload = s.maxPayload := rfl
@[simp] theorem State.tcancel_ackPayload (s : State) : (s.tcancel).ackPayload = s.ackPayload := rfl
@[simp] theorem State.tcancel_out (s : State) : (s.tcancel).out = s.out := rfl
@[simp] theorem State.tcancel_stimuli (s : State) : (s.tcancel).stimuli = s.stimuli := rfl
@[simp] theorem State.tcancel_rnd (s : State) : (s.tcancel).rnd = s.rnd := rfl
@[simp] theorem State.tcancel_fresh (s : State) : (s.tcancel).fresh = s.fresh := rfl

/-! ### `storeLast` -/

@[simp] theorem State.storeLast_ss (s : State) (F : Bytes) : (s.storeLast F).ss = s.ss := rfl
@[simp] theorem State.storeLast_rs (s : State) (F : Bytes) : (s.storeLast F).rs = s.rs := rfl
@[simp] theorem State.storeLast_ts (s : State) (F : Bytes) : (s.storeLast F).ts = s.ts := rfl
@[simp] theorem State.storeLast_cnt (s : State) (F : Bytes) : (s.storeLast F).cnt = s.cnt := rfl
@[simp] theorem State.storeLast_last (s : State) (F : Bytes) : (s.storeLast F).last = (s.last.writeBytes 0 F).below F.length := rfl
@[simp] theorem State.storeLast_lastLen (s : State) (F : Bytes) : (s.storeLast F).lastLen = F.length := rfl
@[simp] theorem State.storeLast_lastValid (s : State) (F : Bytes) : (s.storeLast F).lastValid = true := rfl
@[simp] theorem State.storeLast_errPv (s : State) (F : Bytes) : (s.storeLast F).errPv = s.errPv := rfl
@[simp] theorem State.storeLast_halt (s : State) (F : Bytes) : (s.storeLast F).halt = s.halt := rfl
@[simp] theorem State.storeLast_cfgK (s : State) (F : Bytes) : (s.storeLast F).cfgK = s.cfgK := rfl
@[simp] theorem State.storeLast_cfgTimeout (s : State) (F : Bytes) : (s.storeLast F).cfgTimeout = s.cfgTimeout := rfl
@[simp] theorem State.storeLast_cfgLoss (s : State) (F : Bytes) : (s.storeLast F).cfgLoss = s.cfgLoss := rfl
@[simp] theorem State.storeLast_cfgCorr (s : State) (F : Bytes) : (s.storeLast F).cfgCorr = s.cfgCorr := rfl
@[simp] theorem State.storeLast_cfgTest (s : State) (F : Bytes) : (s.storeLast F).cfgTest = s.cfgTest := rfl
@[simp] theorem State.storeLast_maxPayload (s : State) (F : Bytes) : (s.storeLast F).maxPayload = s.maxPayload := rfl
@[simp] theorem State.storeLast_ackPayload (s : State) (F : Bytes) : (s.storeLast F).ackPayload = s.ackPayload := rfl
@[simp] theorem State.storeLast_out (s : State) (F : Bytes) : (s.storeLast F).out = s.out := rfl
@[simp] theorem State.storeLast_stimuli (s : State) (F : Bytes) : (s.storeLast F).stimuli = s.stimuli := rfl
@[simp] theorem State.storeLast_rnd (s : State) (F : Bytes) : (s.storeLast F).rnd = s.rnd := rfl
@[simp] theorem State.storeLast_fresh (s : State) (F : Bytes) : (s.storeLast F).fresh = s.fresh + 1 := rfl

/-! ### `drawn` -/

@[simp] theorem State.drawn_ss (s : State) : s.drawn.ss = s.ss := by
  unfold State.drawn; split <;> rfl
@[simp] theorem State.drawn_rs (s : State) : s.drawn.rs = s.rs := by
  unfold State.drawn; split <;> rfl
@[simp] theorem State.drawn_ts (s : State) : s.drawn.ts = s.ts := by
  unfold State.drawn; split <;> rfl
@[simp] theorem State.drawn_cnt (s : State) : s.drawn.cnt = s.cnt := by
  unfold State.drawn; split <;> rfl
@[simp] theorem State.drawn_last (s : State) : s.drawn.last = s.last := by
  unfold State.drawn; split <;> rfl
@[simp] theorem State.drawn_lastLen (s : State) : s.drawn.lastLen = s.lastLen := by
  unfold State.drawn; split <;> rfl
@[simp] theorem State.drawn_lastValid (s : State) : s.drawn.lastValid = s.lastValid := by
  unfold State.drawn; split <;> rfl
@[simp] theorem State.drawn_errPv (s : State) : s.drawn.errPv = s.errPv := by
  unfold State.drawn; split <;> rfl
@[simp] theorem State.drawn_halt (s : State) : s.drawn.halt = s.halt := by
  unfold State.drawn; split <;> rfl
@[simp] theorem State.drawn_cfgK (s : State) : s.drawn.cfgK = s.cfgK := by
  unfold State.drawn; split <;> rfl
@[simp] theorem State.drawn_cfgTimeout (s : State) : s.drawn.cfgTimeout = s.cfgTimeout := by
  unfold State.drawn; split <;> rfl
@[simp] theorem State.drawn_cfgLoss (s : State) : s.drawn.cfgLoss = s.cfgLoss := by
  unfold State.drawn; split <;> rfl
@[simp] theorem State.drawn_cfgCorr (s : State) : s.drawn.cfgCorr = s.cfgCorr := by
  unfold State.drawn; split <;> rfl
@[simp] theorem State.drawn_cfgTest (s : State) : s.drawn.cfgTest = s.cfgTest := by
  unfold State.drawn; split <;> rfl
@[simp] theorem State.drawn_maxPayload (s : State) : s.drawn.maxPayload = s.maxPayload := by
  unfold State.drawn; split <;> rfl
@[simp] theorem State.drawn_ackPayload (s : State) : s.drawn.ackPayload = s.ackPayload := by
  unfold State.drawn; split <;> rfl
@[simp] theorem State.drawn_out (s : State) : s.drawn.out = s.out := by
  unfold State.drawn; split <;> rfl
@[simp] theorem State.drawn_stimuli (s : State) : s.drawn.stimuli = s.stimuli := by
  unfold State.drawn; split <;> rfl
@[simp] theorem State.drawn_rnd (s : State) : s.drawn.rnd = s.rnd.tail := by
  unfold State.drawn; split <;> simp_all

end Sys2Proof.Machine
end

