-- ==== Sys2Proof/Laws/Ops.lean ====
section
/-! SUPPORT. One lemma for each shared operation, saying once what it can do: the buffer's memory and its canonical form, the
draws, the channel. -/

namespace Sys2Proof.Machine

/-! ### The memory of the buffer -/

/-- Every address of a canonical memory's tail is above its head's. -/
theorem Memory.wf_cons {c : Host.Cell} {m : Memory} :
    Memory.wf (c :: m) = true ↔ (∀ d ∈ m, c.1 < d.1) ∧ Memory.wf m = true := by
  simp [Memory.wf]

theorem Memory.read_eq_none_of_lt {m : Memory} {a : Nat} (h : ∀ d ∈ m, a < d.1) : Memory.read m a = none := by
  induction m with
  | nil => rfl
  | cons c m ih =>
    have hc : a < c.1 := h c (by simp)
    rw [Memory.read, if_neg (by omega)]
    exact ih fun d hd => h d (List.mem_cons_of_mem _ hd)

/-- Read after write: the written address gives the written byte, every other address what it gave before. -/
theorem Memory.read_write (m : Memory) (a : Nat) (b : Byte) (x : Nat) :
    Memory.read (Memory.write m a b) x = if x = a then some b else Memory.read m x := by
  induction m with
  | nil => simp [Memory.write, Memory.read]
  | cons c m ih =>
    unfold Memory.write
    split
    · simp [Memory.read]
    · split
      · rename_i h1 h2
        subst h2
        by_cases hx : x = c.1 <;> simp [Memory.read, hx]
      · simp only [Memory.read, ih]
        split <;> split <;> simp_all

theorem Memory.mem_write {m : Memory} {a : Nat} {b : Byte} {d : Host.Cell} (h : d ∈ Memory.write m a b) :
    d = (a, b) ∨ d ∈ m := by
  induction m with
  | nil => simpa [Memory.write] using h
  | cons c m ih =>
    unfold Memory.write at h
    split at h
    · simpa using h
    · split at h
      · rcases List.mem_cons.1 h with h | h
        · exact .inl h
        · exact .inr (List.mem_cons_of_mem _ h)
      · rcases List.mem_cons.1 h with h | h
        · exact .inr (by simp [h])
        · rcases ih h with h | h
          · exact .inl h
          · exact .inr (List.mem_cons_of_mem _ h)

/-- A write keeps the canonical form. -/
theorem Memory.wf_write {m : Memory} (h : m.wf = true) (a : Nat) (b : Byte) : (Memory.write m a b).wf = true := by
  induction m with
  | nil => rfl
  | cons c m ih =>
    obtain ⟨hc, hm⟩ := Memory.wf_cons.1 h
    unfold Memory.write
    split
    · rename_i h1
      refine Memory.wf_cons.2 ⟨fun d hd => ?_, h⟩
      rcases List.mem_cons.1 hd with rfl | hd
      · exact h1
      · exact Nat.lt_trans h1 (hc d hd)
    · split
      · rename_i h1 h2
        exact Memory.wf_cons.2 ⟨fun d hd => by have := hc d hd; simp only; omega, hm⟩
      · rename_i h1 h2
        refine Memory.wf_cons.2 ⟨fun d hd => ?_, ih hm⟩
        rcases Memory.mem_write hd with rfl | hd
        · simp only; omega
        · exact hc d hd

/-- Writing a byte sequence keeps the canonical form. -/
theorem Memory.wf_writeBytes {m : Memory} (h : m.wf = true) (a : Nat) (v : Bytes) : (m.writeBytes a v).wf = true := by
  induction v generalizing m a with
  | nil => exact h
  | cons b v ih => exact ih (Memory.wf_write h a b) (a + 1)

/-- Reading after a byte sequence was written: its bytes at its addresses, elsewhere what was there. -/
theorem Memory.read_writeBytes (m : Memory) (a : Nat) (v : Bytes) (x : Nat) :
    (m.writeBytes a v).read x = if a ≤ x ∧ x < a + v.length then v[x - a]? else m.read x := by
  induction v generalizing m a with
  | nil => simp [Memory.writeBytes]
  | cons b v ih =>
    rw [Memory.writeBytes, ih, Memory.read_write]
    by_cases h1 : x = a
    · subst h1
      simp
    · by_cases h2 : a + 1 ≤ x ∧ x < a + 1 + v.length
      · have h3 : x - a = (x - (a + 1)) + 1 := by omega
        rw [if_pos h2, if_pos (by simp only [List.length_cons]; omega), h3, List.getElem?_cons_succ]
      · rw [if_neg h2, if_neg h1, if_neg (by simp only [List.length_cons]; omega)]

/-- Forgetting keeps the canonical form. -/
theorem Memory.wf_below {m : Memory} (h : m.wf = true) (n : Nat) : (m.below n).wf = true := by
  induction m with
  | nil => rfl
  | cons c m ih =>
    obtain ⟨hc, hm⟩ := Memory.wf_cons.1 h
    unfold Memory.below
    rw [List.filter_cons]
    split
    · refine Memory.wf_cons.2 ⟨fun d hd => hc d (List.mem_of_mem_filter hd), ih hm⟩
    · exact ih hm

/-- After forgetting, addresses below `n` read as before and the others hold no value. -/
theorem Memory.read_below (m : Memory) (n x : Nat) : (m.below n).read x = if x < n then m.read x else none := by
  induction m with
  | nil => simp [Memory.below, Memory.read]
  | cons c m ih =>
    unfold Memory.below at ih ⊢
    rw [List.filter_cons]
    split
    · rename_i h
      simp only [decide_eq_true_eq] at h
      simp only [Memory.read, ih]
      split <;> simp_all
    · rename_i h
      simp only [decide_eq_true_eq] at h
      simp only [Memory.read, ih]
      by_cases hx : x = c.1
      · subst hx; simp [h]
      · simp [hx]

/-- What `storeLast` leaves in the buffer: the frame, and no specified value above it. -/
theorem State.storeLast_read (s : State) (F : Bytes) (a : Nat) : (s.storeLast F).last.read a = F[a]? := by
  rw [State.storeLast_last, Memory.read_below, Memory.read_writeBytes]
  by_cases h : a < F.length
  · simp [h]
  · rw [if_neg h, List.getElem?_eq_none (by omega)]

/-- `storeLast` keeps the canonical form. -/
theorem State.storeLast_wf {s : State} (h : s.last.wf = true) (F : Bytes) : (s.storeLast F).last.wf = true :=
  Memory.wf_below (Memory.wf_writeBytes h 0 F) F.length

/-- After `storeLast F` the buffer holds `F`. -/
theorem State.storeLast_holds (s : State) (F : Bytes) : LastHolds (s.storeLast F) F :=
  ⟨rfl, rfl, fun a _ => State.storeLast_read s F a⟩

/-- Where the buffer holds `F`, within its size, `MemRead(LAST, 0, LAST_LEN)` gives `F`. -/
theorem State.readLast_of_holds {s : State} {F : Bytes} (h : LastHolds s F)
    (hw : within F.length (maxFrame s.maxPayload) = true) : s.readLast = some F := by
  obtain ⟨_, hl, hr⟩ := h
  unfold State.readLast
  rw [hl, if_pos hw]
  congr 1
  apply List.ext_getElem
  · simp
  · intro i h1 h2
    simp [State.lastByte, hr i h2, h2]

/-- `readLast` fails only where `LAST_LEN` is above `MAX_FRAME`. -/
theorem State.readLast_isSome {s : State} (h : within s.lastLen (maxFrame s.maxPayload) = true) :
    ∃ F, s.readLast = some F := ⟨_, by rw [State.readLast, if_pos h]⟩

/-! ### Draws and the channel -/

/-- `draws` are draws that port RND can answer. -/
theorem State.draws_of (s : State) : DrawsOf s s.draws := by
  intro d h
  unfold State.draws
  split <;> simp_all

/-- A position drawn for a string of length `L` is inside it. -/
theorem Draws.position_lt (d : Draws) {L : Nat} (h : 0 < L) : d.position L < L := Nat.mod_lt _ h

/-- Every position of a string of length `L` is drawn by some draw. -/
theorem Draws.position_of_lt {L p : Nat} (h : p < L) (u v : BitVec 16) : (Draws.mk u v p).position L = p :=
  Nat.mod_eq_of_lt h

/-- What taking the draws does: it uses up what port RND presents, or counts one use of a free value. -/
theorem State.drawn_eq (s : State) : ∃ f, s.drawn = { s with rnd := s.rnd.tail, fresh := f } := by
  unfold State.drawn
  split
  · exact ⟨s.fresh, by simp_all⟩
  · exact ⟨s.fresh + 1, by simp_all⟩

/-- All that CHSEND can do: the outcome and the events its draws give, the draws used up in a test instance, and nothing
else. -/
theorem State.chsend_spec (s : State) (port : TxPort) (F : Bytes) :
    (s.chsend port F).1 = channelOutcome s s.draws F
    ∧ ∃ f, (s.chsend port F).2
        = { s with out := s.out ++ channelEvents s port s.draws F, rnd := rndAfter s, fresh := f } := by
  obtain ⟨f, hf⟩ := s.drawn_eq
  have hpos : (0 < F.length - 6) ↔ 6 < F.length := by omega
  unfold State.chsend channelEvents channelOutcome rndAfter
  cases ht : s.cfgTest
  · exact ⟨rfl, s.fresh, by simp [State.emit, State.log, ht]⟩
  · by_cases hl : s.cfgLoss < s.draws.u
    · exact ⟨by simp [hl], f, by simp [hl, hf, ht]⟩
    · by_cases hc : s.draws.v < s.cfgCorr ∧ 6 < F.length
      · refine ⟨by simp [hl, hc], f, ?_⟩
        simp [hl, hc, hf, State.emit, State.log, Draws.position, corruptFrame, ht]
      · refine ⟨by simp [hl, hc, hpos], f, ?_⟩
        simp [hl, hc, hpos, hf, State.emit, State.log, ht]

/-! CHSEND writes no register, no configuration and no stimulus. -/

@[simp] theorem State.chsend_ss (s : State) (p : TxPort) (F : Bytes) : (s.chsend p F).2.ss = s.ss := by
  obtain ⟨_, _, h⟩ := s.chsend_spec p F; rw [h]
@[simp] theorem State.chsend_rs (s : State) (p : TxPort) (F : Bytes) : (s.chsend p F).2.rs = s.rs := by
  obtain ⟨_, _, h⟩ := s.chsend_spec p F; rw [h]
@[simp] theorem State.chsend_ts (s : State) (p : TxPort) (F : Bytes) : (s.chsend p F).2.ts = s.ts := by
  obtain ⟨_, _, h⟩ := s.chsend_spec p F; rw [h]
@[simp] theorem State.chsend_cnt (s : State) (p : TxPort) (F : Bytes) : (s.chsend p F).2.cnt = s.cnt := by
  obtain ⟨_, _, h⟩ := s.chsend_spec p F; rw [h]
@[simp] theorem State.chsend_last (s : State) (p : TxPort) (F : Bytes) : (s.chsend p F).2.last = s.last := by
  obtain ⟨_, _, h⟩ := s.chsend_spec p F; rw [h]
@[simp] theorem State.chsend_lastLen (s : State) (p : TxPort) (F : Bytes) : (s.chsend p F).2.lastLen = s.lastLen := by
  obtain ⟨_, _, h⟩ := s.chsend_spec p F; rw [h]
@[simp] theorem State.chsend_lastValid (s : State) (p : TxPort) (F : Bytes) : (s.chsend p F).2.lastValid = s.lastValid := by
  obtain ⟨_, _, h⟩ := s.chsend_spec p F; rw [h]
@[simp] theorem State.chsend_errPv (s : State) (p : TxPort) (F : Bytes) : (s.chsend p F).2.errPv = s.errPv := by
  obtain ⟨_, _, h⟩ := s.chsend_spec p F; rw [h]
@[simp] theorem State.chsend_halt (s : State) (p : TxPort) (F : Bytes) : (s.chsend p F).2.halt = s.halt := by
  obtain ⟨_, _, h⟩ := s.chsend_spec p F; rw [h]
@[simp] theorem State.chsend_cfgK (s : State) (p : TxPort) (F : Bytes) : (s.chsend p F).2.cfgK = s.cfgK := by
  obtain ⟨_, _, h⟩ := s.chsend_spec p F; rw [h]
@[simp] theorem State.chsend_cfgTimeout (s : State) (p : TxPort) (F : Bytes) : (s.chsend p F).2.cfgTimeout = s.cfgTimeout := by
  obtain ⟨_, _, h⟩ := s.chsend_spec p F; rw [h]
@[simp] theorem State.chsend_cfgLoss (s : State) (p : TxPort) (F : Bytes) : (s.chsend p F).2.cfgLoss = s.cfgLoss := by
  obtain ⟨_, _, h⟩ := s.chsend_spec p F; rw [h]
@[simp] theorem State.chsend_cfgCorr (s : State) (p : TxPort) (F : Bytes) : (s.chsend p F).2.cfgCorr = s.cfgCorr := by
  obtain ⟨_, _, h⟩ := s.chsend_spec p F; rw [h]
@[simp] theorem State.chsend_cfgTest (s : State) (p : TxPort) (F : Bytes) : (s.chsend p F).2.cfgTest = s.cfgTest := by
  obtain ⟨_, _, h⟩ := s.chsend_spec p F; rw [h]
@[simp] theorem State.chsend_maxPayload (s : State) (p : TxPort) (F : Bytes) : (s.chsend p F).2.maxPayload = s.maxPayload := by
  obtain ⟨_, _, h⟩ := s.chsend_spec p F; rw [h]
@[simp] theorem State.chsend_ackPayload (s : State) (p : TxPort) (F : Bytes) : (s.chsend p F).2.ackPayload = s.ackPayload := by
  obtain ⟨_, _, h⟩ := s.chsend_spec p F; rw [h]
@[simp] theorem State.chsend_stimuli (s : State) (p : TxPort) (F : Bytes) : (s.chsend p F).2.stimuli = s.stimuli := by
  obtain ⟨_, _, h⟩ := s.chsend_spec p F; rw [h]
@[simp] theorem State.chsend_out (s : State) (p : TxPort) (F : Bytes) :
    (s.chsend p F).2.out = s.out ++ channelEvents s p s.draws F := by
  obtain ⟨_, _, h⟩ := s.chsend_spec p F; rw [h]
@[simp] theorem State.chsend_rnd (s : State) (p : TxPort) (F : Bytes) : (s.chsend p F).2.rnd = rndAfter s := by
  obtain ⟨_, _, h⟩ := s.chsend_spec p F; rw [h]
@[simp] theorem State.chsend_outcome (s : State) (p : TxPort) (F : Bytes) :
    (s.chsend p F).1 = channelOutcome s s.draws F := (s.chsend_spec p F).1

end Sys2Proof.Machine
end

