-- ==== Sys2Proof/Laws/Outputs.lean ====
section
/-! SUPPORT. What the readings of an output history (frames by port, deliveries, statuses) give on its parts. -/

namespace Sys2Proof.Machine

@[simp] theorem deliveries_nil : deliveries [] = [] := rfl
@[simp] theorem emittedOn_nil (p : TxPort) : emittedOn p [] = [] := rfl
@[simp] theorem statuses_nil : statuses [] = [] := rfl

@[simp] theorem deliveries_append (a b : List Output) : deliveries (a ++ b) = deliveries a ++ deliveries b := by
  simp [deliveries]
@[simp] theorem emittedOn_append (p : TxPort) (a b : List Output) :
    emittedOn p (a ++ b) = emittedOn p a ++ emittedOn p b := by simp [emittedOn]
@[simp] theorem statuses_append (a b : List Output) : statuses (a ++ b) = statuses a ++ statuses b := by simp [statuses]

@[simp] theorem deliveries_emit (p : TxPort) (F : Bytes) (o : List Output) :
    deliveries (.emit p F :: o) = deliveries o := rfl
@[simp] theorem deliveries_deliver (P : Bytes) (o : List Output) : deliveries (.deliver P :: o) = P :: deliveries o := rfl
@[simp] theorem deliveries_respond (st : Status) (b : Bytes) (o : List Output) :
    deliveries (.respond st b :: o) = deliveries o := rfl
@[simp] theorem deliveries_outcome (c : ChOutcome) (o : List Output) : deliveries (.outcome c :: o) = deliveries o := rfl

@[simp] theorem statuses_emit (p : TxPort) (F : Bytes) (o : List Output) : statuses (.emit p F :: o) = statuses o := rfl
@[simp] theorem statuses_deliver (P : Bytes) (o : List Output) : statuses (.deliver P :: o) = statuses o := rfl
@[simp] theorem statuses_respond (st : Status) (b : Bytes) (o : List Output) :
    statuses (.respond st b :: o) = st :: statuses o := rfl
@[simp] theorem statuses_outcome (c : ChOutcome) (o : List Output) : statuses (.outcome c :: o) = statuses o := rfl

@[simp] theorem emittedOn_emit (p q : TxPort) (F : Bytes) (o : List Output) :
    emittedOn p (.emit q F :: o) = if q = p then F :: emittedOn p o else emittedOn p o := by
  by_cases h : q = p <;> simp [emittedOn, h]
@[simp] theorem emittedOn_deliver (p : TxPort) (P : Bytes) (o : List Output) :
    emittedOn p (.deliver P :: o) = emittedOn p o := rfl
@[simp] theorem emittedOn_respond (p : TxPort) (st : Status) (b : Bytes) (o : List Output) :
    emittedOn p (.respond st b :: o) = emittedOn p o := rfl
@[simp] theorem emittedOn_outcome (p : TxPort) (c : ChOutcome) (o : List Output) :
    emittedOn p (.outcome c :: o) = emittedOn p o := rfl

/-- A transmission delivers nothing. -/
@[simp] theorem deliveries_channelEvents (s : State) (p : TxPort) (d : Draws) (F : Bytes) :
    deliveries (channelEvents s p d F) = [] := by
  unfold channelEvents; split <;> rfl
/-- A transmission responds nothing. -/
@[simp] theorem statuses_channelEvents (s : State) (p : TxPort) (d : Draws) (F : Bytes) :
    statuses (channelEvents s p d F) = [] := by
  unfold channelEvents; split <;> rfl
/-- A transmission emits on its own port only. -/
theorem emittedOn_channelEvents_of_ne (s : State) {p q : TxPort} (h : q ≠ p) (d : Draws) (F : Bytes) :
    emittedOn p (channelEvents s q d F) = [] := by
  unfold channelEvents; split <;> simp [h]
/-- Where the injector is absent a transmission is the plain frame. -/
theorem channelEvents_of_absent {s : State} (h : s.cfgTest = false) (p : TxPort) (d : Draws) (F : Bytes) :
    channelEvents s p d F = [.emit p F] := by
  simp [channelEvents, channelOutcome, h]

end Sys2Proof.Machine
end

