-- ==== Sys2Proof/Laws/PerInstr.lean ====
section
/-! SUPPORT. Statements made for every operation, one lemma per constructor of `Instr`. -/

namespace Sys2Proof.Laws

/-- An encoding begins with the operation's opcode and has the fewest bytes its format needs (30_encoding.md R80, R81, R83);
an internal operation has no opcode and no encoding (R85). -/
def EncodeHead.Statement (i : Instr) : Prop :=
  ∀ item, encode i = some item → item.head? = Machine.opcode i ∧ minLength (item.headD 0) ≤ item.length

theorem EncodeHead.ckgen (data : Bytes) : EncodeHead.Statement (.ckgen data) := by
  intro item h; cases h; exact ⟨rfl, Nat.le_add_left 1 _⟩

theorem EncodeHead.ckvfy (data : Bytes) : EncodeHead.Statement (.ckvfy data) := by
  intro item h; cases h; exact ⟨rfl, Nat.le_add_left 1 _⟩

theorem EncodeHead.lpad (width : BitVec 16) (value : Bytes) : EncodeHead.Statement (.lpad width value) := by
  intro item h; cases h; exact ⟨rfl, Nat.le_add_left 3 _⟩

theorem EncodeHead.flip (data : Bytes) : EncodeHead.Statement (.flip data) := by
  intro item h; cases h; exact ⟨rfl, Nat.le_add_left 1 _⟩

theorem EncodeHead.diff (data : Bytes) : EncodeHead.Statement (.diff data) := by
  intro item h; cases h; exact ⟨rfl, Nat.le_add_left 1 _⟩

theorem EncodeHead.encs (number : BitVec 16) (checksum : BitVec 32) (payload : Bytes) : EncodeHead.Statement (.encs number checksum payload) := by
  intro item h; cases h; exact ⟨rfl, Nat.le_add_left 7 _⟩

theorem EncodeHead.encr (number : BitVec 16) (checksum : BitVec 32) (payload : Bytes) : EncodeHead.Statement (.encr number checksum payload) := by
  intro item h; cases h; exact ⟨rfl, Nat.le_add_left 7 _⟩

theorem EncodeHead.dec (role : Role) (frame : Bytes) : EncodeHead.Statement (.dec role frame) := by
  intro item h; cases h; exact ⟨rfl, Nat.le_add_left 2 _⟩

theorem EncodeHead.send (payload : Bytes) : EncodeHead.Statement (.send payload) := by
  intro item h; cases h; exact ⟨rfl, Nat.le_add_left 1 _⟩

theorem EncodeHead.rxack (frame : Bytes) : EncodeHead.Statement (.rxack frame) := by
  intro item h; cases h; exact ⟨rfl, Nat.le_add_left 1 _⟩

theorem EncodeHead.rxpkt (frame : Bytes) : EncodeHead.Statement (.rxpkt frame) := by
  intro item h; cases h; exact ⟨rfl, Nat.le_add_left 1 _⟩

theorem EncodeHead.tick : EncodeHead.Statement .tick := by
  intro item h; cases h; exact ⟨rfl, by decide⟩

theorem EncodeHead.shutdown : EncodeHead.Statement .shutdown := by
  intro item h; cases h; exact ⟨rfl, by decide⟩

theorem EncodeHead.texpd : EncodeHead.Statement .texpd := by
  intro item h; cases h; exact ⟨rfl, by decide⟩

theorem EncodeHead.tstart (d : BitVec 32) : EncodeHead.Statement (.tstart d) := fun _ h => nomatch h

theorem EncodeHead.tcancel : EncodeHead.Statement .tcancel := fun _ h => nomatch h

theorem EncodeHead.chsend (port : TxPort) (frame : Bytes) : EncodeHead.Statement (.chsend port frame) := fun _ h => nomatch h

theorem EncodeHead.tmo : EncodeHead.Statement .tmo := fun _ h => nomatch h

end Sys2Proof.Laws
end

