-- ==== Sys2Proof/Laws/Steps.lean ====
section
/-! SUPPORT. What a step can be: the one inversion lemma that every claim about all steps goes through. -/

namespace Sys2Proof.Machine

/-- A step that answers a next state is a turn of the control loop, a reset, an illegal item, or one presented
operation. -/
theorem step_cases {s t : State} (h : step s = .next t) :
    (s.stimuli = [] ∧ exec .tmo s = .next t)
    ∨ (∃ rest, s.stimuli = .controlLoop :: rest ∧ exec .tmo { s with stimuli := rest } = .next t)
    ∨ (∃ rest, s.stimuli = .resetInput :: rest ∧ t = resetAsserted { s with stimuli := rest })
    ∨ (∃ port item rest, s.stimuli = .present port item :: rest
        ∧ t = ({ s with stimuli := rest } : State).illegal)
    ∨ (∃ port item rest i, s.stimuli = .present port item :: rest ∧ decode item = .op i ∧ portOf i = some port
        ∧ exec i { s with stimuli := rest } = .next t) := by
  unfold step advance at h
  split at h
  · rename_i st rest hs
    cases st with
    | controlLoop => exact .inr (.inl ⟨rest, hs, h⟩)
    | resetInput => injection h with h; exact .inr (.inr (.inl ⟨rest, hs, h.symm⟩))
    | present port item =>
      simp only [takeStimulus, present] at h
      split at h
      · injection h with h; exact .inr (.inr (.inr (.inl ⟨port, item, rest, hs, h.symm⟩)))
      · rename_i i hd
        split at h
        · rename_i hp; exact .inr (.inr (.inr (.inr ⟨port, item, rest, i, hs, hd, hp, h⟩)))
        · injection h with h; exact .inr (.inr (.inr (.inl ⟨port, item, rest, hs, h.symm⟩)))
  · rename_i hs; exact .inl ⟨hs, h⟩

end Sys2Proof.Machine
end

