-- ==== Sys2Proof/Tests/Slice0.lean ====
section
/-! SUPPORT. Tests: words and responses written out from the spec (spec/95_test_vectors.md names them V1, V2, …, E1), an ill-formed
term for each check of WellFormed, and a concrete witness for the hypotheses of each obligation that has any. -/

namespace Sys2Proof.Tests

open Sys2Proof.Machine

/-! ### Small states -/

/-- An endpoint right after reset, with block size `k`, `TIMEOUT` 3, no injector and `MAX_PAYLOAD` unbounded. -/
def endpoint (k : BitVec 3) : State :=
  State.resetWith { k := k, timeout := 3, maxPayload := none, ackPayload := [], testEn := false, lossThr := 65535, corrThr := 0 }

/-- The same with `K` 1 and `MAX_PAYLOAD` 4. -/
def bounded : State := { endpoint 1 with maxPayload := some 4 }

/-- A test instance with thresholds 0x8000 and draws waiting on port RND. -/
def tester (d : Draws) : State := { endpoint 1 with cfgTest := true, cfgLoss := 0x8000, cfgCorr := 0x8000, rnd := [d] }

/-- E1's packet with number 0 (V50). -/
def packetE1 : Bytes := [0x00, 0x00, 0x00, 0x00, 0x00, 0xBE, 0x41]

/-- The ACK numbered 0 of an endpoint with `K` 1 (V125). -/
def ack0 : Bytes := [0x00, 0x00, 0x00, 0x00, 0x00, 0xFF]

/-- The sender awaits the ACK for E1's packet. -/
def awaiting (ts : TimerState) (cnt : BitVec 32) : State :=
  { endpoint 1 with ss := ⟨.awaitingAck, 0⟩, ts := ts, cnt := cnt, last := Memory.writeBytes [] 0 packetE1, lastLen := 7, lastValid := true }

/-- The state a step answers with, if it does. -/
def after (r : Result) : Option State :=
  match r with
  | .next t => some t
  | .fault _ => none
  | .refused _ => none

/-- What a step outputs. -/
def outputs (r : Result) : Option (List Output) := (after r).map (·.out)

/-- `SS`, `TS`, `CNT`, `ERR.PV` after a step: the state columns of 95_test_vectors.md section 2.7. -/
def senderColumns (r : Result) : Option (SenderState × TimerState × BitVec 32 × Bool) :=
  (after r).map fun t => (t.ss, t.ts, t.cnt, t.errPv)

/-! ### Decoding: words written out from 30_encoding.md R80 and R81 -/

theorem test_decode_ckgen : decode [0x01, 0x41] = .op (.ckgen [0x41]) := by decide
theorem test_decode_ckvfy : decode [0x02, 0x41, 0x00, 0x00, 0x00, 0xBE] = .op (.ckvfy [0x41, 0x00, 0x00, 0x00, 0xBE]) := by decide
theorem test_decode_lpad : decode [0x03, 0x00, 0x0C, 0x03, 0xFF] = .op (.lpad 12 [0x03, 0xFF]) := by decide
theorem test_decode_flip : decode [0x04, 0x41] = .op (.flip [0x41]) := by decide
theorem test_decode_diff : decode [0x05, 0x41, 0x40] = .op (.diff [0x41, 0x40]) := by decide
theorem test_decode_encs :
    decode [0x06, 0xAB, 0xCD, 0x01, 0x02, 0x03, 0x04, 0xAA, 0xBB] = .op (.encs 0xABCD 0x01020304 [0xAA, 0xBB]) := by decide
theorem test_decode_encr : decode [0x07, 0x00, 0x01, 0xFF, 0xFF, 0xFF, 0xFF] = .op (.encr 1 0xFFFFFFFF []) := by decide
theorem test_decode_dec_receiver : decode [0x08, 0x01, 0x00] = .op (.dec .receiver [0x00]) := by decide
theorem test_decode_dec_sender : decode [0x08, 0x00, 0x01] = .op (.dec .sender [0x01]) := by decide
theorem test_decode_send : decode [0x10, 0x48, 0x69] = .op (.send [0x48, 0x69]) := by decide
theorem test_decode_rxack : decode [0x11, 0x00, 0x01] = .op (.rxack [0x00, 0x01]) := by decide
theorem test_decode_rxpkt : decode [0x12, 0x00, 0x01] = .op (.rxpkt [0x00, 0x01]) := by decide
theorem test_decode_tick : decode [0x13] = .op .tick := by decide
theorem test_decode_shutdown : decode [0x14] = .op .shutdown := by decide
theorem test_decode_texpd : decode [0x15] = .op .texpd := by decide

/-- The encoder writes the same bytes (V53). -/
theorem test_encode_encs :
    encode (.encs 0xABCD 0x01020304 [0xAA, 0xBB]) = some [0x06, 0xAB, 0xCD, 0x01, 0x02, 0x03, 0x04, 0xAA, 0xBB] := by decide

/-- V177, V178, V179, V180, V181, V54, V59, V59b, V70: every rejection by its name. -/
theorem test_decode_rejects :
    decode [0x00] = .illegal (.reservedOpcode 0x00) ∧ decode [0x09, 0x01, 0x02] = .illegal (.reservedOpcode 0x09)
    ∧ decode [0x16] = .illegal (.reservedOpcode 0x16) ∧ decode [] = .illegal .emptyOperation
    ∧ decode [0x14, 0x00] = .illegal .extraBytes ∧ decode [0x03, 0x00] = .illegal .tooShort
    ∧ decode [0x06, 0x00, 0x00, 0x00, 0x00, 0x00] = .illegal .tooShort ∧ decode [0x08] = .illegal .tooShort
    ∧ decode [0x08, 0x02, 0x00, 0x00, 0x00, 0x00, 0x00, 0x00] = .illegal .badRole
    ∧ decode [0x05, 0x41, 0x42, 0x43] = .illegal .oddLength := by decide

/-- The table's words: the first byte is bits 7..0, and operand bytes the table gives no bits are zero. -/
theorem test_table_words :
    decodeTableWord 8 0x13 = some .tick ∧ decodeTableWord 8 0x03 = some (.lpad 0 [])
    ∧ decodeTableWord 16 0x4101 = some (.ckgen [0x41]) ∧ decodeTableWord 8 0x06 = some (.encs 0 0 []) := by decide

/-- The placed word is the next thing the block runs. -/
theorem test_withFetchWord :
    outputs (step ((endpoint 1).withFetchWord 8 0x15)) = some [.respond .ok [0x00]] := by decide

/-! ### WellFormed: an ill-formed term for each check -/

/-- DIFF of odd length (V70); CHSEND of a frame below 6 bytes (44_channel.md R180). -/
theorem test_wellFormed_shape :
    wellFormed none (.diff [0x41, 0x42, 0x43]) = false ∧ wellFormed none (.diff [0x41, 0x42]) = true
    ∧ wellFormed none (.chsend .txs [0, 0, 0, 0, 0]) = false ∧ wellFormed none (.chsend .txs ack0) = true := by decide

/-- The limits of 30_encoding.md R84 for `MAX_PAYLOAD` 1 and 0: the first length above each is refused. -/
theorem test_wellFormed_limits :
    wellFormed (some 1) (.ckgen [1, 2]) = false ∧ wellFormed (some 1) (.ckgen [1]) = true
    ∧ wellFormed (some 1) (.ckvfy [1, 2, 3, 4, 5, 6, 7, 8]) = false ∧ wellFormed (some 1) (.ckvfy [1, 2, 3, 4, 5, 6, 7]) = true
    ∧ wellFormed (some 0) (.flip [1, 2, 3, 4, 5, 6, 7]) = false ∧ wellFormed (some 0) (.flip [1, 2, 3, 4, 5, 6]) = true
    ∧ wellFormed (some 0) (.diff [1, 2, 3, 4, 5, 6, 7, 8, 9, 10, 11, 12, 13, 14]) = false
    ∧ wellFormed (some 0) (.diff [1, 2, 3, 4, 5, 6, 7, 8, 9, 10, 11, 12]) = true
    ∧ wellFormed (some 0) (.encs 0 0 [1]) = false ∧ wellFormed (some 0) (.encr 0 0 [1]) = false
    ∧ wellFormed (some 1) (.encs 0 0 [1]) = true ∧ wellFormed (some 1) (.encr 0 0 [1]) = true
    ∧ wellFormed (some 0) (.dec .sender [1, 2, 3, 4, 5, 6, 7]) = false ∧ wellFormed (some 0) (.dec .sender ack0) = true
    ∧ wellFormed (some 1) (.send [1, 2]) = false ∧ wellFormed (some 1) (.send [1]) = true
    ∧ wellFormed (some 0) (.rxack packetE1) = false ∧ wellFormed (some 0) (.rxack ack0) = true
    ∧ wellFormed (some 0) (.rxpkt packetE1) = false ∧ wellFormed (some 0) (.rxpkt ack0) = true := by decide

/-- LPAD takes 8192 bytes and not one more, and any number where `MAX_PAYLOAD` is unbounded (30_encoding.md R84). -/
theorem test_wellFormed_lpad :
    wellFormed (some 0) (.lpad 0 (List.replicate 8193 0)) = false
    ∧ wellFormed (some 0) (.lpad 0 (List.replicate 8192 0)) = true
    ∧ wellFormed none (.lpad 0 (List.replicate 8193 0)) = true := by
  have h : ∀ v : Bytes, wellFormed (some 0) (.lpad 0 v) = decide (v.length ≤ 8192) := fun _ => rfl
  refine ⟨?_, ?_, rfl⟩ <;> rw [h, List.length_replicate] <;> decide

/-- The internal operations have no encoding (30_encoding.md R85). -/
theorem test_internal_have_no_encoding :
    isHostOp (.tstart 1) = false ∧ isHostOp .tcancel = false ∧ isHostOp (.chsend .txs ack0) = false ∧ isHostOp .tmo = false := by
  decide

/-! ### The operations -/

/-- E1, V1. -/
theorem test_ckgen_E1 : outputs (exec (.ckgen [0x41]) (endpoint 1)) = some [.respond .ok [0x00, 0x00, 0x00, 0xBE]] := by decide
/-- V10: a carry out of 32 bits. -/
theorem test_ckgen_carry :
    outputs (exec (.ckgen [0xFF, 0xFF, 0xFF, 0xFF, 0x00, 0x00, 0x00, 0x02]) (endpoint 4))
      = some [.respond .ok [0xFF, 0xFF, 0xFF, 0xFD]] := by decide
/-- V24: `K` 3. -/
theorem test_ckvfy_k3 :
    outputs (exec (.ckvfy [0x48, 0x65, 0x6C, 0x6C, 0x6F, 0x00, 0x4B, 0x2B, 0x93]) (endpoint 3)) = some [.respond .ok [0x01]] := by
  decide
/-- V29: empty data does not verify. -/
theorem test_ckvfy_empty : outputs (exec (.ckvfy []) (endpoint 1)) = some [.respond .ok [0x00]] := by decide
/-- V45: a width that is no multiple of 8. -/
theorem test_lpad_12 :
    outputs (exec (.lpad 12 [0x03, 0xFF]) (endpoint 1)) = some [.respond .ok [0x00, 0x0C, 0x03, 0xFF]] := by decide
/-- V47. -/
theorem test_lpad_narrow : outputs (exec (.lpad 8 [0x01, 0x00]) (endpoint 1)) = some [.respond .invalidWidth []] := by decide
/-- V63: the first bit of the second byte. -/
theorem test_flip_8 : outputs (exec (.flip [0x00, 0x00]) (tester ⟨0, 0, 8⟩)) = some [.respond .ok [0x00, 0x80]] := by decide
/-- V64: no injector. -/
theorem test_flip_absent : outputs (exec (.flip [0x41]) (endpoint 1)) = some [.respond .illegalCommand []] := by decide
/-- V66. -/
theorem test_diff_7 : outputs (exec (.diff [0x41, 0x40]) (endpoint 1)) = some [.respond .ok [0x01]] := by decide
/-- V69. -/
theorem test_diff_all : outputs (exec (.diff [0xFF, 0x00, 0x00, 0xFF]) (endpoint 1)) = some [.respond .ok [0xFF, 0xFF]] := by
  decide
/-- V53: byte order. -/
theorem test_encs_order :
    outputs (exec (.encs 0xABCD 0x01020304 [0xAA, 0xBB]) (endpoint 4))
      = some [.respond .ok [0xAB, 0xCD, 0x01, 0x02, 0x03, 0x04, 0xAA, 0xBB]] := by decide
/-- V51. -/
theorem test_encr_ack :
    outputs (exec (.encr 1 0xFFFFFFFF []) (endpoint 4)) = some [.respond .ok [0x00, 0x01, 0xFF, 0xFF, 0xFF, 0xFF]] := by decide
/-- V59c. -/
theorem test_dec_fields :
    outputs (exec (.dec .sender [0xAB, 0xCD, 0x01, 0x02, 0x03, 0x04, 0xAA, 0xBB]) (endpoint 4))
      = some [.respond .ok [0xAB, 0xCD, 0x01, 0x02, 0x03, 0x04, 0xAA, 0xBB]] := by decide
/-- V57. -/
theorem test_dec_short : outputs (exec (.dec .receiver [0, 0, 0, 0, 0]) (endpoint 4)) = some [.respond .malformedPacket []] := by
  decide
/-- V83 and V93: the tick that brings the countdown to its end. -/
theorem test_tick_expires :
    (after (exec .tick { endpoint 1 with ts := .running, cnt := 1 })).map (fun t => (t.ts, t.cnt)) = some (.expired, 0)
    ∧ (after (exec .tick { endpoint 1 with ts := .running, cnt := 0 })).map (fun t => (t.ts, t.cnt)) = some (.expired, 0) := by
  decide
/-- V96. -/
theorem test_tick_counts :
    (after (exec .tick { endpoint 1 with ts := .running, cnt := 4294967295 })).map (fun t => (t.ts, t.cnt))
      = some (.running, 4294967294) := by decide
/-- V91. -/
theorem test_tstart_restarts :
    (after (exec (.tstart 5) { endpoint 1 with ts := .running, cnt := 2 })).map (fun t => (t.ts, t.cnt)) = some (.running, 5) := by
  decide
/-- V86 and V90. -/
theorem test_tcancel :
    (after (exec .tcancel { endpoint 1 with ts := .running, cnt := 2 })).map (fun t => (t.ts, t.cnt)) = some (.cancelled, 2)
    ∧ (after (exec .tcancel { endpoint 1 with ts := .expired })).map (fun t => (t.ts, t.cnt)) = some (.idle, 0) := by decide
/-- TEXPD in V83's state after. -/
theorem test_texpd_expired : outputs (exec .texpd { endpoint 1 with ts := .expired }) = some [.respond .ok [0x01]] := by decide
/-- V103: the first payload bit. -/
theorem test_chsend_corrupts :
    outputs (exec (.chsend .txs [0x00, 0x00, 0x00, 0x00, 0xBE, 0xBD, 0x41, 0x42]) (tester ⟨0x0000, 0x7FFF, 0⟩))
      = some [.emit .txs [0x00, 0x00, 0x00, 0x00, 0xBE, 0xBD, 0xC1, 0x42], .outcome .corrupted] := by decide
/-- V102: just above the loss threshold. -/
theorem test_chsend_loses :
    outputs (exec (.chsend .txs packetE1) (tester ⟨0x8001, 0, 0⟩)) = some [.outcome .lost] := by decide
/-- V120. -/
theorem test_send_first :
    outputs (exec (.send [0x41]) (endpoint 1)) = some [.emit .txs packetE1, .respond .ok [0x00]]
    ∧ senderColumns (exec (.send [0x41]) (endpoint 1)) = some (⟨.awaitingAck, 0⟩, .running, 3, false)
    ∧ (after (exec (.send [0x41]) (endpoint 1))).bind State.readLast = some packetE1 := by decide
/-- V122: the sticky flag. -/
theorem test_send_violation :
    outputs (exec (.send [0x42]) (awaiting .running 2)) = some [.respond .protocolViolation []]
    ∧ senderColumns (exec (.send [0x42]) (awaiting .running 2)) = some (⟨.awaitingAck, 0⟩, .running, 2, true) := by decide
/-- V126: a matching ACK after expiry. -/
theorem test_rxack_accepts :
    outputs (exec (.rxack ack0) (awaiting .expired 0)) = some [.respond .ok [0x00]]
    ∧ senderColumns (exec (.rxack ack0) (awaiting .expired 0)) = some (⟨.awaitingCall, 1⟩, .idle, 0, false) := by decide
/-- V127: a wrong number (E2 for `K` 1). -/
theorem test_rxack_wrong_number :
    outputs (exec (.rxack [0x00, 0x01, 0x00, 0x00, 0x00, 0xFF]) (awaiting .running 2)) = some [.respond .ok [0x02]] := by decide
/-- V134. -/
theorem test_tmo_retransmits :
    outputs (exec .tmo (awaiting .expired 0)) = some [.emit .txs packetE1, .outcome .delivered]
    ∧ senderColumns (exec .tmo (awaiting .expired 0)) = some (⟨.awaitingAck, 0⟩, .running, 3, false) := by decide
/-- V150: the ACK first, then the delivery. -/
theorem test_rxpkt_accepts :
    outputs (exec (.rxpkt packetE1) (endpoint 1)) = some [.emit .txr ack0, .deliver [0x41], .respond .ok [0x00, 0x00]]
    ∧ (after (exec (.rxpkt packetE1) (endpoint 1))).map (·.rs) = some 1 := by decide
/-- V155: number 5 is echoed. -/
theorem test_rxpkt_echoes :
    outputs (exec (.rxpkt [0x00, 0x05, 0x00, 0x00, 0x00, 0xBE, 0x41]) (endpoint 1))
      = some [.emit .txr [0x00, 0x05, 0x00, 0x00, 0x00, 0xFF], .respond .ok [0x01, 0x00]] := by decide
/-- V171. -/
theorem test_shutdown_expired :
    (after (exec .shutdown (awaiting .expired 0))).map (fun t => (t.ss, t.ts, t.halt, t.out))
      = some (⟨.awaitingAck, 0⟩, .idle, true, [.respond .ok []]) := by decide
/-- V182: SEND presented on RXS. -/
theorem test_wrong_port :
    outputs (step { endpoint 1 with stimuli := [.present .rxs [0x10, 0x41]] }) = some [.respond .illegalCommand []] := by decide
/-- 10_state.md R30: V170's state before, with `LAST_VALID`. -/
theorem test_status_byte : statusByte { awaiting .running 2 with ss := ⟨.awaitingAck, 1⟩ } = 0x8B := by decide
/-- 60_exceptions.md R275: the buffer is visible on STATUS in the halted state too. -/
theorem test_status_shows_last :
    (statusPort { awaiting .cancelled 2 with halt := true }).last.read 6 = some 0x41 := by decide

/-! ### Witnesses: a state and operands that meet the hypotheses of each obligation -/

theorem witness_DecodeOfEncodeIsTheOperation :
    shapeOk (.diff [0x41, 0x40]) = true ∧ isHostOp (.diff [0x41, 0x40]) = true := by decide
theorem witness_EncodeOfDecodeIsTheItem : decode [0x08, 0x01] = .op (.dec .receiver []) := by decide

/-- An item of exactly `MAX_PAYLOAD` operand bytes is legal, one byte more is illegal. -/
theorem witness_PresentedItemIsAnsweredOrRun :
    (∃ rest, ({ bounded with stimuli := [.present .cmd [0x10, 1, 2, 3, 4, 5]] } : State).stimuli
        = .present .cmd [0x10, 1, 2, 3, 4, 5] :: rest)
    ∧ IllegalItem bounded.maxPayload .cmd [0x10, 1, 2, 3, 4, 5] ∧ ¬ IllegalItem bounded.maxPayload .cmd [0x10, 1, 2, 3, 4] :=
  ⟨⟨[], rfl⟩, by simp [IllegalItem, bounded], by simp [IllegalItem, bounded]⟩
theorem witness_StepRunsThePresentedOperation :
    ({ endpoint 1 with stimuli := [.present .tick [0x13]] } : State).stimuli = .present .tick [0x13] :: []
    ∧ decode [0x13] = .op .tick ∧ portOf .tick = some .tick := by decide
theorem witness_ControlLoopTurnAndQuiescence :
    ({ endpoint 1 with stimuli := [.controlLoop] } : State).stimuli = .controlLoop :: []
    ∧ (endpoint 1).stimuli = [] ∧ tmoEnabled (endpoint 1) = false ∧ tmoEnabled (awaiting .expired 0) = true := by decide
theorem witness_ResetGivesTheResetValues :
    ({ awaiting .running 2 with stimuli := [.resetInput] } : State).stimuli = .resetInput :: [] := by decide
theorem witness_BlocksAreDigitsFromTheEnd :
    0 < 8 ∧ 0 < (blocks (bits packetE1) 8).length ∧ 6 < (blocks (bits packetE1) 8).length
    ∧ (blocks (bits packetE1) 8)[6]? = some 0x41 := by decide
theorem witness_FoldingIsEndAroundCarry :
    0 < 8 ∧ 1 ≤ 2 ∧ 2 ≤ 2 ^ 8 - 1 ∧ 2 % (2 ^ 8 - 1) = 0x101 % (2 ^ 8 - 1) ∧ foldSum 0x101 8 = 2
    ∧ [2, 0xFF].Perm (blocks (bits [0xFF, 0x02]) 8) := by decide
theorem witness_GenerateComplementsAndVerifyNeedsAllOnes :
    1 ≤ 1 ∧ (∀ B ∈ blocks (bits [0x00, 0x00]) (8 * 1), B = 0) ∧ vfyRaw (bits packetE1) 1 = true := by decide
theorem witness_PacketChecksumIsZeroExtended : 1 ≤ 1 ∧ 4 ≤ 4 ∧ (pktCk 1 [0x41]).toNat = 0xBE ∧ 4 ≠ 3 := by decide
theorem witness_GeneratedChecksumVerifies :
    LegalConfig bounded ∧ within [1, 2, 3, 4].length bounded.maxPayload = true := ⟨⟨by decide, by decide, by decide⟩, by decide⟩
/-- The first and the last position, at the smallest and the largest block size. -/
theorem witness_SingleBitFlipIsDetected :
    1 ≤ 1 ∧ 4 ≤ 4 ∧ 0 < 8 * [0x41].length + 32 ∧ 39 < 8 * [0x41].length + 32 := by decide
theorem witness_PermutationsAndLeadingZerosAreNotDetected :
    0 < 8 ∧ (blocks (bits [0x41, 0x42]) 8).Perm (blocks (bits [0x42, 0x41]) 8) ∧ 1 ≤ 3 ∧ 3 ≤ 4 := by decide
theorem witness_ZeroPayloadHasTheAllOnesChecksum : 1 ≤ 1 ∧ 4 ≤ 4 ∧ pktOk 1 (pktCk 1 []) [] = true := by decide
theorem witness_ChecksumOperationsRespondTheResult :
    within [1, 2, 3, 4].length bounded.maxPayload = true ∧ within [1, 2, 3, 4, 5].length bounded.maxPayload = false
    ∧ within (List.replicate 10 (0 : Byte)).length (maxFrame bounded.maxPayload) = true
    ∧ within (List.replicate 11 (0 : Byte)).length (maxFrame bounded.maxPayload) = false := by decide
/-- The limit of 8192 bytes from both sides, an instance with none, and the value at the width's bound (V44, V41). -/
theorem witness_LpadRespondsThePaddedValue :
    bounded.maxPayload ≠ none ∧ 8192 < (List.replicate 8193 (0 : Byte)).length
    ∧ (List.replicate 8192 (0 : Byte)).length ≤ 8192 ∧ (endpoint 1).maxPayload = none
    ∧ 2 ^ (0 : BitVec 16).toNat ≤ unbe [0x01] ∧ unbe [0x41] < 2 ^ (7 : BitVec 16).toNat := by
  rw [List.length_replicate, List.length_replicate]
  decide
theorem witness_FlipComplementsExactlyOneBit :
    within (List.replicate 11 (0 : Byte)).length (maxFrame bounded.maxPayload) = false ∧ ([] : Bytes) = []
    ∧ within [0x41].length (maxFrame (tester ⟨0, 0, 7⟩).maxPayload) = true ∧ (tester ⟨0, 0, 7⟩).cfgTest = true
    ∧ ([0x41] : Bytes) ≠ [] ∧ (endpoint 1).cfgTest = false := by decide
theorem witness_DiffRespondsTheMaskOfTheHalves :
    [1, 2, 3].length % 2 = 1
    ∧ within (List.replicate 22 (0 : Byte)).length ((maxFrame bounded.maxPayload).map (2 * ·)) = false
    ∧ within (List.replicate 20 (0 : Byte)).length ((maxFrame bounded.maxPayload).map (2 * ·)) = true
    ∧ (List.replicate 20 (0 : Byte)).length = 2 * 10 := by decide
theorem witness_DiffLocatesTheFlippedBit :
    (bits [0x41]).length = (bits [0x40]).length ∧ 0 < (bits [0x41]).length ∧ 7 < (bits [0x41]).length := by decide
theorem witness_FrameCodecRoundTrip : 6 ≤ ack0.length ∧ ([0, 0, 0, 0, 0] : Bytes).length < 6 := by decide
theorem witness_EncodersRespondTheFrame :
    within [1, 2, 3, 4].length bounded.maxPayload = true ∧ within [1, 2, 3, 4, 5].length bounded.maxPayload = false := by decide
theorem witness_DecRespondsTheFields :
    within (List.replicate 11 (0 : Byte)).length (maxFrame bounded.maxPayload) = false
    ∧ within [0, 0, 0, 0, 0].length (maxFrame bounded.maxPayload) = true ∧ [0, 0, 0, 0, 0].length < 6
    ∧ within ack0.length (maxFrame bounded.maxPayload) = true ∧ 6 ≤ ack0.length := by decide
/-- Each timer state, and the counts 1 and 2 where the two clauses of TICK meet. -/
theorem witness_TimerTransitionTable :
    (endpoint 1).ts = .idle ∧ (awaiting .running 1).ts = .running ∧ (awaiting .running 1).cnt ≤ 1
    ∧ 1 < (awaiting .running 2).cnt ∧ (awaiting .expired 0).ts = .expired
    ∧ ({ endpoint 1 with ts := .cancelled } : State).ts = .cancelled := by decide
theorem witness_TimerChangesOnlyAsTheTableSays :
    ∃ t, step { awaiting .running 1 with stimuli := [.present .tick [0x13]] } = .next t ∧ t.ts = .expired := ⟨_, rfl, by decide⟩
theorem witness_InjectorDamagesOnePayloadBitAtMost :
    6 ≤ ack0.length ∧ channelOutcome (tester ⟨0, 0, 0⟩) ⟨0, 0, 0⟩ packetE1 = .corrupted := by decide
theorem witness_EveryChannelOutcomeIsPossible :
    (tester ⟨0, 0, 0⟩).cfgTest = true ∧ (tester ⟨0, 0, 0⟩).cfgLoss ≠ 65535 ∧ (tester ⟨0, 0, 0⟩).cfgCorr ≠ 0
    ∧ 0 < 8 * (packetE1.length - 6) ∧ 7 < 8 * (packetE1.length - 6) := by decide
theorem witness_CorruptedDeliveryFailsTheChecksum :
    LegalConfig (tester ⟨0, 0, 0⟩)
    ∧ channelOutcome (tester ⟨0, 0, 0⟩) ⟨0, 0, 0⟩ (enc 0 (pktCk (tester ⟨0, 0, 0⟩).k [0x41]) [0x41]) = .corrupted :=
  ⟨⟨by decide, by decide, by decide⟩, by decide⟩
theorem witness_DrawsReachNoRegister :
    ∃ t t', exec (.send [0x41]) (tester ⟨0, 0, 0⟩) = .next t
      ∧ exec (.send [0x41]) { tester ⟨0, 0, 0⟩ with rnd := [⟨0x9000, 0, 0⟩], fresh := 5 } = .next t' := ⟨_, _, rfl, rfl⟩
/-- A payload of exactly `MAX_PAYLOAD` bytes. -/
theorem witness_SendTransmitsKeepsAndArms :
    within [1, 2, 3, 4].length bounded.maxPayload = true ∧ bounded.halt = false ∧ bounded.ss.phase = .awaitingCall := by decide
theorem witness_SendIsRefusedWithItsReason :
    within [1, 2, 3, 4, 5].length bounded.maxPayload = false
    ∧ within [0x41].length (endpoint 1).maxPayload = true ∧ ({ awaiting .idle 0 with halt := true } : State).halt = true
    ∧ (awaiting .running 2).halt = false ∧ (awaiting .running 2).ss.phase = .awaitingAck := by decide
theorem witness_RxackAcceptsTheMatchingAck :
    within (([] : Bytes).length + 6) (maxFrame (awaiting .expired 0).maxPayload) = true
    ∧ (awaiting .expired 0).halt = false ∧ (awaiting .expired 0).ss.phase = .awaitingAck
    ∧ pktOk (awaiting .expired 0).k 0xFF [] = true ∧ enc (zext16 (awaiting .expired 0).ss.bit) 0xFF [] = ack0 := by decide
theorem witness_RxackIgnoresEverythingElse :
    within (List.replicate 11 (0 : Byte)).length (maxFrame bounded.maxPayload) = false
    ∧ within ack0.length (maxFrame bounded.maxPayload) = true ∧ ({ bounded with halt := true } : State).halt = true
    ∧ bounded.ss.phase = .awaitingCall ∧ (awaiting .running 2).halt = false ∧ (awaiting .running 2).ss.phase = .awaitingAck
    ∧ ([0, 0, 0, 0, 0] : Bytes).length < 6 ∧ pktOk (awaiting .running 2).k 0xFE [] = false
    ∧ pktOk (awaiting .running 2).k 0xFF [] = true ∧ (0x0101 : BitVec 16) ≠ zext16 (awaiting .running 2).ss.bit := by decide

/-- The buffer of `awaiting` holds E1's packet. -/
theorem awaiting_lastHolds (ts : TimerState) (cnt : BitVec 32) : LastHolds (awaiting ts cnt) packetE1 :=
  ⟨rfl, rfl, by simp only [awaiting]; decide⟩
theorem witness_TmoRetransmitsTheLastFrame :
    (awaiting .expired 0).halt = false ∧ (awaiting .expired 0).ss.phase = .awaitingAck ∧ (awaiting .expired 0).ts = .expired
    ∧ LastHolds (awaiting .expired 0) packetE1 ∧ within packetE1.length (maxFrame (awaiting .expired 0).maxPayload) = true
    ∧ ¬ ((awaiting .running 1).halt = false ∧ (awaiting .running 1).ss.phase = .awaitingAck ∧ (awaiting .running 1).ts = .expired) :=
  ⟨rfl, rfl, rfl, awaiting_lastHolds _ _, rfl, by decide⟩
theorem witness_OnlyAcceptedSendWritesLast :
    ∃ t, step { endpoint 1 with stimuli := [.present .cmd [0x10, 0x41]] } = .next t ∧ t.lastLen ≠ (endpoint 1).lastLen :=
  ⟨_, rfl, by decide⟩
theorem witness_SequenceBitChangesOnlyOnAcceptedAck :
    ∃ t, step { awaiting .running 2 with stimuli := [.present .rxs (0x11 :: ack0)] } = .next t ∧ t.ss.bit ≠ (awaiting .running 2).ss.bit :=
  ⟨_, rfl, by decide⟩
theorem witness_RxpktFollowsTheTransitionTable :
    within (List.replicate 11 (0 : Byte)).length (maxFrame bounded.maxPayload) = false
    ∧ within packetE1.length (maxFrame bounded.maxPayload) = true ∧ ({ bounded with halt := true } : State).halt = true
    ∧ bounded.halt = false ∧ ([0, 0, 0, 0, 0] : Bytes).length < 6 ∧ packetE1 = enc 0 0xBE [0x41]
    ∧ pktOk bounded.k 0xBF [0x41] = false ∧ pktOk bounded.k 0xBE [0x41] = true ∧ (5 : BitVec 16) ≠ zext16 bounded.rs
    ∧ (0 : BitVec 16) = zext16 bounded.rs := by decide
theorem witness_DuplicatesAreAcknowledgedNotDelivered :
    within ([0x41].length + 6) (maxFrame bounded.maxPayload) = true ∧ bounded.halt = false ∧ pktOk bounded.k 0xBE [0x41] = true
    ∧ bounded.cfgTest = false := by decide
theorem witness_DeliveryOnlyOnAcceptedPacket :
    ∃ t, step { endpoint 1 with stimuli := [.present .rxr (0x12 :: packetE1)] } = .next t ∧ t.rs ≠ (endpoint 1).rs
      ∧ deliveries t.out ≠ deliveries (endpoint 1).out := ⟨_, rfl, by decide, by decide⟩

/-- A halted session with a message outstanding meets the protocol invariant. -/
theorem halted_protocolInv : ProtocolInv { awaiting .cancelled 2 with halt := true } :=
  ⟨fun _ => rfl, fun h => (nomatch h), fun h => (nomatch h), fun h => (nomatch h), fun _ => by simp [awaiting]⟩
theorem witness_HaltedBlockStaysSilent :
    ProtocolInv { awaiting .cancelled 2 with halt := true }
    ∧ ∃ t, step { awaiting .cancelled 2 with halt := true } = .next t
      ∧ ∀ rest, ({ awaiting .cancelled 2 with halt := true } : State).stimuli ≠ .resetInput :: rest :=
  ⟨halted_protocolInv, _, rfl, fun _ h => nomatch h⟩
theorem witness_HaltAndErrAreSticky :
    (∃ t, step { awaiting .running 2 with stimuli := [.present .cmd [0x14]] } = .next t ∧ (awaiting .running 2).halt = false
      ∧ t.halt = true)
    ∧ (∃ t, step { awaiting .running 2 with stimuli := [.present .cmd [0x10, 0x42]] } = .next t
      ∧ (awaiting .running 2).errPv = false ∧ t.errPv = true) :=
  ⟨⟨_, rfl, rfl, rfl⟩, _, rfl, rfl, rfl⟩
theorem witness_ErrorsChangeNothingElse :
    ∃ t, exec (.send [0x42]) (awaiting .running 2) = .next t
      ∧ Status.protocolViolation ∈ statuses (t.out.drop (awaiting .running 2).out.length)
      ∧ Status.protocolViolation ≠ .ok := ⟨_, rfl, by decide, by decide⟩
theorem witness_EveryOperationAnswersOnce : ∃ t, exec .tick (endpoint 1) = .next t := ⟨_, rfl⟩
theorem witness_ConfigurationIsFixed :
    (∃ t, exec (.send [0x41]) (endpoint 1) = .next t) ∧ ∃ t, step (endpoint 1) = .next t := ⟨⟨_, rfl⟩, _, rfl⟩
theorem witness_HalvesShareNoRegister :
    (∃ t, exec (.send [0x41]) (endpoint 1) = .next t) ∧ ∃ t, exec (.rxpkt packetE1) (awaiting .running 2) = .next t :=
  ⟨⟨_, rfl⟩, _, rfl⟩
theorem witness_SenderAndReceiverStepsCommute :
    ∃ t t', execAll [.send [0x41], .rxpkt packetE1] (endpoint 1) = .next t
      ∧ execAll [.rxpkt packetE1, .send [0x41]] (endpoint 1) = .next t' := ⟨_, _, rfl, rfl⟩
theorem witness_ExpiryAgainstAckRace :
    within (([] : Bytes).length + 6) (maxFrame (awaiting .expired 0).maxPayload) = true
    ∧ within packetE1.length (maxFrame (awaiting .expired 0).maxPayload) = true ∧ (awaiting .expired 0).halt = false
    ∧ (awaiting .expired 0).ss.phase = .awaitingAck ∧ (awaiting .expired 0).ts = .expired
    ∧ pktOk (awaiting .expired 0).k 0xFF [] = true ∧ LastHolds (awaiting .expired 0) packetE1
    ∧ (awaiting .expired 0).cfgTest = false :=
  ⟨rfl, rfl, rfl, rfl, rfl, by decide, awaiting_lastHolds _ _, rfl⟩

/-- A running session with a message outstanding meets the protocol invariant. -/
theorem awaiting_protocolInv : ProtocolInv (awaiting .running 2) :=
  ⟨fun _ => rfl, fun _ _ => .inl rfl, fun h => (nomatch h), fun _ => by decide, fun h => (nomatch h)⟩
theorem witness_StepKeepsTheProtocolInvariant :
    ProtocolInv (awaiting .running 2)
    ∧ ∃ t, step { awaiting .running 2 with stimuli := [.present .tick [0x13]] } = .next t := ⟨awaiting_protocolInv, _, rfl⟩

/-- The buffer of `awaiting` is as a SEND left it. -/
theorem awaiting_bufferInv : BufferInv (awaiting .running 2) where
  canonical := by decide
  length_within := rfl
  written a := by
    show (Memory.read (Memory.writeBytes [] 0 packetE1) a).isSome = true ↔ a < 7
    rw [Memory.read_writeBytes]
    by_cases h : a < 7
    · have hl : a < packetE1.length := h
      simp [h, hl]
    · have hl : ¬ a < packetE1.length := h
      simp [h, hl, Memory.read]
  empty h := nomatch h
  frame _ := ⟨0, [0x41], rfl, by
    rw [show enc (zext16 0) (pktCk (awaiting .running 2).k [0x41]) [0x41] = packetE1 by decide]
    exact awaiting_lastHolds _ _⟩
  awaiting _ := ⟨[0x41], rfl, by
    rw [show enc (zext16 (awaiting .running 2).ss.bit) (pktCk (awaiting .running 2).k [0x41]) [0x41] = packetE1 by decide]
    exact awaiting_lastHolds _ _⟩
theorem witness_StepKeepsTheBufferInvariant :
    BufferInv (awaiting .running 2) ∧ ∃ t, step (awaiting .running 2) = .next t := ⟨awaiting_bufferInv, _, rfl⟩
theorem witness_NoStepStops : BufferInv (awaiting .running 2) := awaiting_bufferInv

theorem witness_LossFreeDeliveryIsInOrderExactlyOnce :
    LegalConfig bounded ∧ SameConfig bounded bounded ∧ bounded.cfgTest = false ∧ bounded.halt = false
    ∧ bounded.ss.phase = .awaitingCall ∧ bounded.ss.bit = bounded.rs
    ∧ ∀ P ∈ ([[0x41], [], [1, 2, 3, 4]] : List Bytes), within P.length bounded.maxPayload = true :=
  ⟨⟨by decide, by decide, by decide⟩, rfl, rfl, rfl, rfl, rfl, by decide⟩
theorem witness_MessageIsLostOutOfLockstep :
    LegalConfig bounded ∧ SameConfig bounded { bounded with rs := 1 } ∧ bounded.cfgTest = false ∧ bounded.halt = false
    ∧ bounded.ss.phase = .awaitingCall ∧ ({ bounded with rs := 1 } : State).rs = ~~~bounded.ss.bit
    ∧ within [1, 2, 3, 4].length bounded.maxPayload = true :=
  ⟨⟨by decide, by decide, by decide⟩, rfl, rfl, rfl, rfl, rfl, rfl⟩
theorem witness_OwnTransmissionIsAcceptedAsAck :
    LegalConfig bounded ∧ within [1, 2, 3, 4].length bounded.maxPayload = true ∧ bounded.cfgTest = false
    ∧ bounded.halt = false ∧ bounded.ss.phase = .awaitingCall := ⟨⟨by decide, by decide, by decide⟩, rfl, rfl, rfl, rfl⟩

end Sys2Proof.Tests
end

/-! ### Reset (10_state.md R40) -/

namespace Sys2Proof.Machine

@[simp] theorem Memory.read_nil (a : Nat) : Memory.read [] a = none := rfl

@[simp] theorem State.params_resetWith (p : Params) : (State.resetWith p).params = p := rfl

/-- The table of 10_state.md R40, row by row: the values `t` has after a reset of the instance with parameters `p`. It says
nothing of what the outside still has to present, which reset leaves alone (log 13). -/
def HasResetValues (p : Params) (t : State) : Prop :=
  t.ss = ⟨.awaitingCall, 0⟩ ∧ t.rs = 0 ∧ t.ts = .idle ∧ t.cnt = 0 ∧ (∀ a, t.last.read a = none)
    ∧ t.lastLen = 0 ∧ t.lastValid = false ∧ t.errPv = false ∧ t.halt = false ∧ t.params = p ∧ t.out = []

theorem State.resetWith_hasResetValues (p : Params) : HasResetValues p (State.resetWith p) :=
  ⟨rfl, rfl, rfl, rfl, Memory.read_nil, rfl, rfl, rfl, rfl, State.params_resetWith p, rfl⟩

/-- What waits at the input ports and the counter of free values are no rows of the table. -/
theorem HasResetValues.withInputs {p : Params} {t : State} (h : HasResetValues p t) (stimuli : List Stimulus)
    (rnd : List Draws) (fresh : Nat) :
    HasResetValues p { t with stimuli := stimuli, rnd := rnd, fresh := fresh } := h

theorem resetAsserted_hasResetValues (s : State) : HasResetValues s.params (resetAsserted s) :=
  (State.resetWith_hasResetValues s.params).withInputs s.stimuli s.rnd (s.fresh + 1)

/-- The step that takes the reset input asserts reset (70_reset_and_hazards.md R290). -/
theorem step_of_resetInput {s : State} {rest : List Stimulus} (h : s.stimuli = .resetInput :: rest) :
    step s = .next (resetAsserted { s with stimuli := rest }) := by
  simp only [step, advance, h, takeStimulus]

/-- Settles O7: the reset input runs `resetAsserted`, which differs from `State.resetWith` only in what no row of the table
speaks of. -/
theorem resetGivesTheResetValues : Obligations.ResetGivesTheResetValues :=
  ⟨fun s rest hs => ⟨_, step_of_resetInput hs, resetAsserted_hasResetValues { s with stimuli := rest }⟩,
    State.resetWith_hasResetValues⟩

end Sys2Proof.Machine

/-! ### End-around carry (40_checksum.md R102) -/

namespace Sys2Proof.Machine

/-- Two sums are the same ones'-complement number (R102 (a)): both are zero or neither is, and they have one residue modulo
`2^W - 1`. Every pass of `fold`, every step of the accumulator and every regrouping of bits into blocks keeps it. -/
def EndAroundEq (W a b : Nat) : Prop := (a = 0 ↔ b = 0) ∧ a ≡ b [MOD 2 ^ W - 1]

namespace EndAroundEq

variable {W a b c d : Nat}

theorem refl (W a : Nat) : EndAroundEq W a a := ⟨Iff.rfl, Nat.ModEq.refl a⟩

theorem symm (h : EndAroundEq W a b) : EndAroundEq W b a := ⟨h.1.symm, h.2.symm⟩

theorem trans (h : EndAroundEq W a b) (h' : EndAroundEq W b c) : EndAroundEq W a c :=
  ⟨h.1.trans h'.1, h.2.trans h'.2⟩

theorem add (h : EndAroundEq W a b) (h' : EndAroundEq W c d) : EndAroundEq W (a + c) (b + d) :=
  ⟨by rw [Nat.add_eq_zero_iff, Nat.add_eq_zero_iff, h.1, h'.1], h.2.add h'.2⟩

/-- A carry out of whole blocks counts as if it stood at bit 0, because `2^W` is 1 modulo `2^W - 1`. -/
theorem carry (W m a b : Nat) : EndAroundEq W (a * 2 ^ (W * m) + b) (a + b) := by
  have hone : 2 ^ W ≡ 1 [MOD 2 ^ W - 1] := ((Nat.modEq_iff_dvd' Nat.one_le_two_pow).2 dvd_rfl).symm
  have hpow : 2 ^ (W * m) ≡ 1 [MOD 2 ^ W - 1] := by
    simpa only [Nat.pow_mul, Nat.one_pow] using hone.pow m
  refine ⟨?_, ?_⟩
  · simp
  · simpa only [Nat.mul_one] using (hpow.mul_left a).add_right b

/-- A number that fits in one block is determined by the class it is in. -/
theorem eq_of_le (h : EndAroundEq W a b) (ha : a ≤ 2 ^ W - 1) (hb : b ≤ 2 ^ W - 1) : a = b := by
  obtain ⟨hzero, hmod⟩ := h
  rcases Nat.eq_zero_or_pos a with ha0 | ha0
  · rw [ha0, hzero.1 ha0]
  · have hb0 : 0 < b := Nat.pos_of_ne_zero fun hb0 => ha0.ne' (hzero.2 hb0)
    have hpred : a - 1 ≡ b - 1 [MOD 2 ^ W - 1] := by
      apply Nat.ModEq.add_right_cancel' 1
      rwa [Nat.sub_add_cancel ha0, Nat.sub_add_cancel hb0]
    have := hpred.eq_of_lt_of_lt (by omega) (by omega)
    omega

end EndAroundEq

/-! ### `fold` -/

theorem foldPasses_of_lt {W T : Nat} (h : T < 2 ^ W) (fuel : Nat) : foldPasses W fuel T = T := by
  cases fuel with
  | zero => rfl
  | succ fuel => rw [foldPasses, if_neg (Nat.not_le.2 h)]

/-- A pass of `fold` makes a sum that does not fit smaller, so `fold` ends. -/
theorem foldPass_lt {W T : Nat} (hW : 0 < W) (h : 2 ^ W ≤ T) : T % 2 ^ W + T / 2 ^ W < T := by
  have hcarry : 0 < T / 2 ^ W := Nat.div_pos h (Nat.two_pow_pos W)
  have hwide : 1 < 2 ^ W := Nat.one_lt_two_pow hW.ne'
  have hless : T / 2 ^ W < 2 ^ W * (T / 2 ^ W) := lt_mul_of_one_lt_left hcarry hwide
  have hsplit := Nat.mod_add_div T (2 ^ W)
  omega

/-- Any fuel of at least `T` passes gives the same result. -/
theorem foldPasses_congr_fuel {W : Nat} (hW : 0 < W) {n m T : Nat} (hn : T ≤ n) (hm : T ≤ m) :
    foldPasses W n T = foldPasses W m T := by
  induction n generalizing m T with
  | zero =>
    have hlt : T < 2 ^ W := (Nat.le_zero.1 hn).symm ▸ Nat.two_pow_pos W
    rw [foldPasses_of_lt hlt, foldPasses_of_lt hlt]
  | succ n ih =>
    by_cases h : 2 ^ W ≤ T
    · have hpass := foldPass_lt hW h
      obtain ⟨m, rfl⟩ : ∃ m', m = m' + 1 := ⟨m - 1, by omega⟩
      rw [foldPasses, foldPasses, if_pos h, if_pos h]
      exact ih (by omega) (by omega)
    · rw [foldPasses_of_lt (Nat.not_le.1 h), foldPasses_of_lt (Nat.not_le.1 h)]

theorem foldSum_of_lt {W T : Nat} (h : T < 2 ^ W) : foldSum T W = T := foldPasses_of_lt h T

theorem foldSum_of_le {W T : Nat} (hW : 0 < W) (h : 2 ^ W ≤ T) : foldSum T W = foldSum (T % 2 ^ W + T / 2 ^ W) W := by
  have hpass := foldPass_lt hW h
  obtain ⟨n, rfl⟩ : ∃ n, T = n + 1 := ⟨T - 1, by omega⟩
  rw [foldSum, foldPasses, if_pos h]
  exact foldPasses_congr_fuel hW (by omega) le_rfl

/-- `fold` answers a number of one block in the class of the sum: range and residue of R102 at once. -/
theorem foldSum_spec {W : Nat} (hW : 0 < W) (T : Nat) : foldSum T W ≤ 2 ^ W - 1 ∧ EndAroundEq W (foldSum T W) T := by
  induction T using Nat.strongRecOn with
  | _ T ih =>
    by_cases h : 2 ^ W ≤ T
    · obtain ⟨hle, heq⟩ := ih _ (foldPass_lt hW h)
      have hpass : EndAroundEq W (T % 2 ^ W + T / 2 ^ W) T := by
        have hcarry := EndAroundEq.carry W 1 (T / 2 ^ W) (T % 2 ^ W)
        rw [Nat.mul_one, Nat.div_add_mod', Nat.add_comm (T / 2 ^ W)] at hcarry
        exact hcarry.symm
      rw [foldSum_of_le hW h]
      exact ⟨hle, heq.trans hpass⟩
    · rw [foldSum_of_lt (Nat.not_le.1 h)]
      exact ⟨by omega, .refl W T⟩

theorem foldSum_le {W : Nat} (hW : 0 < W) (T : Nat) : foldSum T W ≤ 2 ^ W - 1 := (foldSum_spec hW T).1

theorem foldSum_endAroundEq {W : Nat} (hW : 0 < W) (T : Nat) : EndAroundEq W (foldSum T W) T := (foldSum_spec hW T).2

/-- `fold` is the canonical representative of a class. -/
theorem eq_foldSum {W S T : Nat} (hW : 0 < W) (hS : S ≤ 2 ^ W - 1) (h : EndAroundEq W S T) : S = foldSum T W :=
  (h.trans (foldSum_endAroundEq hW T).symm).eq_of_le hS (foldSum_le hW T)

theorem foldSum_congr {W T T' : Nat} (hW : 0 < W) (h : EndAroundEq W T T') : foldSum T W = foldSum T' W :=
  eq_foldSum hW (foldSum_le hW T) ((foldSum_endAroundEq hW T).trans h)

theorem foldSum_eq_zero_iff {W : Nat} (hW : 0 < W) (T : Nat) : foldSum T W = 0 ↔ T = 0 := (foldSum_endAroundEq hW T).1

theorem foldSum_eq_allOnes_iff {W : Nat} (hW : 0 < W) (T : Nat) :
    foldSum T W = 2 ^ W - 1 ↔ 0 < T ∧ (2 ^ W - 1) ∣ T := by
  have hpos : 0 < 2 ^ W - 1 := Nat.sub_pos_of_lt (Nat.one_lt_two_pow hW.ne')
  obtain ⟨hzero, hmod⟩ := foldSum_endAroundEq hW T
  constructor
  · intro h
    rw [h] at hzero hmod
    exact ⟨Nat.pos_of_ne_zero (mt hzero.2 hpos.ne'), (hmod.dvd_iff dvd_rfl).1 dvd_rfl⟩
  · rintro ⟨hT, hdvd⟩
    have hall : EndAroundEq W (2 ^ W - 1) T :=
      ⟨by omega, (Nat.modEq_zero_iff_dvd.2 dvd_rfl).trans (Nat.modEq_zero_iff_dvd.2 hdvd).symm⟩
    exact (eq_foldSum hW le_rfl hall).symm

/-- Adding the complement of the folded sum to the sum gives all ones: why a generated checksum verifies (R110). -/
theorem foldSum_add_complement {W : Nat} (hW : 0 < W) (T : Nat) :
    foldSum (T + ((2 ^ W - 1) - foldSum T W)) W = 2 ^ W - 1 := by
  have hsum : foldSum T W + ((2 ^ W - 1) - foldSum T W) = 2 ^ W - 1 := Nat.add_sub_of_le (foldSum_le hW T)
  have hclass := (foldSum_endAroundEq hW T).add (.refl W ((2 ^ W - 1) - foldSum T W))
  rw [hsum] at hclass
  exact (eq_foldSum hW le_rfl hclass).symm

/-! ### The accumulator (R102 (b)) -/

/-- One step of the accumulator is the folded sum of what it holds and the block. -/
theorem accumulate_eq_foldSum {W acc B : Nat} (hW : 0 < W) (hacc : acc ≤ 2 ^ W - 1) (hB : B < 2 ^ W) :
    accumulate W acc B = foldSum (acc + B) W := by
  by_cases h : acc + B < 2 ^ W
  · rw [accumulate, if_pos h, foldSum_of_lt h]
  · have hmod : (acc + B) % 2 ^ W = acc + B - 2 ^ W := by
      rw [Nat.mod_eq_sub_mod (by omega), Nat.mod_eq_of_lt (by omega)]
    have hdiv : (acc + B) / 2 ^ W = 1 := Nat.div_eq_of_lt_le (by omega) (by omega)
    rw [accumulate, if_neg h, foldSum_of_le hW (by omega), hmod, hdiv, foldSum_of_lt (by omega)]

theorem foldl_accumulate {W : Nat} (hW : 0 < W) {Bs : List Nat} (hBs : ∀ B ∈ Bs, B < 2 ^ W) {acc : Nat}
    (hacc : acc ≤ 2 ^ W - 1) : Bs.foldl (accumulate W) acc = foldSum (acc + Bs.sum) W := by
  induction Bs generalizing acc with
  | nil =>
    have := Nat.two_pow_pos W
    rw [List.foldl_nil, List.sum_nil, Nat.add_zero, foldSum_of_lt (by omega)]
  | cons B Bs ih =>
    rw [List.foldl_cons, accumulate_eq_foldSum hW hacc (hBs B List.mem_cons_self),
      ih (fun B' h => hBs B' (List.mem_cons_of_mem B h)) (foldSum_le hW _), List.sum_cons, ← Nat.add_assoc]
    exact foldSum_congr hW ((foldSum_endAroundEq hW _).add (.refl W _))

/-! ### Blocks (R100, R101) -/

theorem lt_of_mem_blocks {b : Bits} {W B : Nat} (h : B ∈ blocks b W) : B < 2 ^ W := by
  obtain ⟨i, -, rfl⟩ := List.mem_map.1 h
  exact (val_lt _).trans_le (Nat.pow_le_pow_right Nat.two_pos (List.length_take_le W _))

/-- The padding fills whole blocks. -/
theorem dvd_padLength_add (L : Nat) {W : Nat} (hW : 0 < W) : W ∣ padLength L W + L := by
  have hlt := Nat.mod_lt L hW
  rw [Nat.dvd_iff_mod_eq_zero, padLength, Nat.mod_add_mod, ← Nat.add_mod_mod, Nat.sub_add_cancel hlt.le, Nat.mod_self]

theorem padLength_of_dvd {L W : Nat} (h : W ∣ L) : padLength L W = 0 := by
  rw [padLength, Nat.mod_eq_zero_of_dvd h, Nat.sub_zero, Nat.mod_self]

/-- A string of whole blocks is cut as it stands. -/
theorem blocks_of_dvd {b : Bits} {W : Nat} (h : W ∣ b.length) :
    blocks b W = (List.range (b.length / W)).map fun i => val ((b.drop (i * W)).take W) := by
  rw [blocks, padLength_of_dvd h]
  rfl

/-- Padding first changes nothing. -/
theorem blocks_pad (b : Bits) {W : Nat} (hW : 0 < W) : blocks (zeros (padLength b.length W) ++ b) W = blocks b W := by
  rw [blocks_of_dvd]
  · rfl
  · simpa using dvd_padLength_add b.length hW

/-- The first `W` bits of a string of whole blocks are its first block. -/
theorem blocks_append {h t : Bits} {W : Nat} (hW : 0 < W) (hh : h.length = W) (ht : W ∣ t.length) :
    blocks (h ++ t) W = val h :: blocks t W := by
  have hcount : (h ++ t).length / W = t.length / W + 1 := by
    rw [List.length_append, hh, Nat.add_div_left _ hW]
  have hdvd : W ∣ (h ++ t).length := by
    rw [List.length_append, hh]; exact dvd_add dvd_rfl ht
  rw [blocks_of_dvd hdvd, blocks_of_dvd ht, hcount, List.range_succ_eq_map, List.map_cons, List.map_map]
  congr 1
  · simp [← hh]
  · apply List.map_congr_left
    intro i _
    have hdrop : (h ++ t).drop ((i + 1) * W) = t.drop (i * W) := by
      rw [Nat.succ_mul, Nat.add_comm, ← List.drop_drop, ← hh, List.drop_left]
    simp only [Function.comp, Nat.succ_eq_add_one, hdrop]

/-- For a string of whole blocks, the sum of the blocks is in the class of the number the string spells. -/
theorem blockSum_endAroundEq_val_of_blocks {W n : Nat} (hW : 0 < W) {b : Bits} (hb : b.length = W * n) :
    EndAroundEq W (blockSum b W) (val b) := by
  induction n generalizing b with
  | zero =>
    rw [List.eq_nil_of_length_eq_zero hb, blockSum, blocks_of_dvd (by simp)]
    simpa using EndAroundEq.refl W 0
  | succ n ih =>
    have htake : (b.take W).length = W := List.length_take_of_le (by rw [hb, Nat.mul_succ]; omega)
    have hdrop : (b.drop W).length = W * n := by rw [List.length_drop, hb, Nat.mul_succ, Nat.add_sub_cancel]
    have hsum : blockSum b W = val (b.take W) + blockSum (b.drop W) W := by
      conv_lhs => rw [← List.take_append_drop W b, blockSum, blocks_append hW htake ⟨n, hdrop⟩, List.sum_cons]
      rfl
    have hval : val b = val (b.take W) * 2 ^ (W * n) + val (b.drop W) := by
      conv_lhs => rw [← List.take_append_drop W b, val_append, hdrop]
    rw [hsum, hval]
    exact ((EndAroundEq.refl W _).add (ih hdrop)).trans (.symm (.carry W n _ _))

/-- The sum of the blocks is in the class of the number the string spells, whatever its length: `b` is cut from the end (R100). -/
theorem blockSum_endAroundEq_val {W : Nat} (hW : 0 < W) (b : Bits) : EndAroundEq W (blockSum b W) (val b) := by
  obtain ⟨n, hn⟩ := dvd_padLength_add b.length hW
  have h := blockSum_endAroundEq_val_of_blocks hW (b := zeros (padLength b.length W) ++ b) (by simpa using hn)
  simpa only [blockSum, blocks_pad b hW, val_append, val_zeros, Nat.zero_mul, Nat.zero_add] using h

/-- The folded sum of a string depends on nothing but the number the string spells. -/
theorem sum1c_eq_foldSum_val {W : Nat} (hW : 0 < W) (b : Bits) : sum1c b W = foldSum (val b) W :=
  foldSum_congr hW (blockSum_endAroundEq_val hW b)

/-- Settles O10: `fold` answers the number of one block in the class of its argument, and so does each step of the
accumulator. -/
theorem foldingIsEndAroundCarry : Obligations.FoldingIsEndAroundCarry := by
  intro W hW
  refine ⟨fun T => ?_, foldSum_le hW, foldSum_eq_zero_iff hW, fun T hT => ⟨?_, ?_, ?_⟩, foldSum_eq_allOnes_iff hW,
    fun b => rfl, fun Bs hBs => ?_, fun b order hperm => ?_⟩
  · split
    next h => exact foldSum_of_le hW h
    next h => exact foldSum_of_lt (Nat.not_le.1 h)
  · exact Nat.pos_of_ne_zero (mt (foldSum_eq_zero_iff hW T).1 hT.ne')
  · exact (foldSum_endAroundEq hW T).2
  · intro S hS hle hmod
    exact eq_foldSum hW hle ⟨by omega, hmod⟩
  · rw [foldl_accumulate hW hBs (Nat.zero_le _), Nat.zero_add]
  · have hlt : ∀ B ∈ order, B < 2 ^ W := fun B hB => lt_of_mem_blocks (hperm.mem_iff.1 hB)
    rw [foldl_accumulate hW hlt (Nat.zero_le _), Nat.zero_add, hperm.sum_eq]
    rfl

/-! ### Generating and verifying (R103, R104) -/

theorem genRaw_le (b : Bits) (k : Nat) : genRaw b k ≤ 2 ^ (8 * k) - 1 := Nat.sub_le _ _

theorem genRaw_lt (b : Bits) (k : Nat) : genRaw b k < 2 ^ (8 * k) :=
  (genRaw_le b k).trans_lt (Nat.sub_lt (Nat.two_pow_pos _) Nat.one_pos)

theorem vfyRaw_iff (b : Bits) (k : Nat) : vfyRaw b k = true ↔ sum1c b (8 * k) = 2 ^ (8 * k) - 1 := beq_iff_eq

theorem vfyRaw_iff_dvd (b : Bits) {k : Nat} (hk : 1 ≤ k) :
    vfyRaw b k = true ↔ 0 < blockSum b (8 * k) ∧ (2 ^ (8 * k) - 1) ∣ blockSum b (8 * k) :=
  (vfyRaw_iff b k).trans (foldSum_eq_allOnes_iff (by omega) _)

/-- The complement of a number of `n` bits is spelled by the complemented bits. -/
theorem bstr_complement {n v : Nat} (h : v < 2 ^ n) : bstr n (2 ^ n - 1 - v) = (bstr n v).map (!·) := by
  unfold bstr
  rw [List.map_map]
  apply List.map_congr_left
  intro i hi
  have hlt : n - 1 - i < n := by have := List.mem_range.1 hi; omega
  rw [Nat.sub_sub, Nat.add_comm 1, Nat.testBit_two_pow_sub_succ h]
  simp [hlt]

/-- The folded sum 0 is the spelling of zero that `vfyRaw` rejects; its complement is all ones. -/
theorem genRaw_of_sum1c_eq_zero {b : Bits} {k : Nat} (h : sum1c b (8 * k) = 0) : genRaw b k = 2 ^ (8 * k) - 1 := by
  rw [genRaw, h, Nat.sub_zero]

theorem sum1c_zeros {W : Nat} (hW : 0 < W) (n : Nat) : sum1c (zeros n) W = 0 := by
  rw [sum1c_eq_foldSum_val hW, val_zeros, foldSum_eq_zero_iff hW]

/-- Settles O11: the complement and the test for all ones, read off the range and the residue of the folded sum. -/
theorem generateComplementsAndVerifyNeedsAllOnes : Obligations.GenerateComplementsAndVerifyNeedsAllOnes := by
  intro k hk
  have hW : 0 < 8 * k := by omega
  have hpos : 0 < 2 ^ (8 * k) - 1 := Nat.sub_pos_of_lt (Nat.one_lt_two_pow hW.ne')
  refine ⟨fun b => ⟨rfl, genRaw_le b k, length_bstr _ _, val_bstr_of_lt (genRaw_lt b k), ?_⟩, fun b => vfyRaw_iff b k,
    fun b => vfyRaw_iff_dvd b hk, fun n => ?_, fun b hb => ?_⟩
  · have hle : sum1c b (8 * k) ≤ 2 ^ (8 * k) - 1 := foldSum_le hW _
    exact bstr_complement (by omega)
  · rw [Bool.eq_false_iff, Ne, vfyRaw_iff, sum1c_zeros hW]
    exact hpos.ne
  · exact genRaw_of_sum1c_eq_zero ((foldSum_eq_zero_iff hW _).2 (List.sum_eq_zero hb))

/-! ### The checksum of a packet (R105, R106, R110, R112) -/

/-- A zero field of whole blocks does not change the checksum. -/
theorem genRaw_append_zeros (b : Bits) {k n : Nat} (hk : 1 ≤ k) (hn : 8 * k ∣ n) : genRaw (b ++ zeros n) k = genRaw b k := by
  have hW : 0 < 8 * k := by omega
  obtain ⟨m, rfl⟩ := hn
  have hval : EndAroundEq (8 * k) (val (b ++ zeros (8 * k * m))) (val b) := by
    rw [val_append, length_zeros, val_zeros]
    exact .carry (8 * k) m (val b) 0
  rw [genRaw, genRaw, sum1c_eq_foldSum_val hW, sum1c_eq_foldSum_val hW, foldSum_congr hW hval]

/-- A checksum written over the zero field it was computed with verifies, for a field of at least a block. -/
theorem vfyRaw_append_genRaw (b : Bits) {k n : Nat} (hk : 1 ≤ k) (hn : 8 * k ≤ n) :
    vfyRaw (b ++ bstr n (genRaw (b ++ zeros n) k)) k = true := by
  have hW : 0 < 8 * k := by omega
  have hfield : genRaw (b ++ zeros n) k < 2 ^ n := (genRaw_lt _ k).trans_le (Nat.pow_le_pow_right Nat.two_pos hn)
  have hzero : val (b ++ zeros n) = val b * 2 ^ n := by rw [val_append, length_zeros, val_zeros, Nat.add_zero]
  rw [vfyRaw_iff, sum1c_eq_foldSum_val hW, val_append, length_bstr, val_bstr_of_lt hfield, genRaw,
    sum1c_eq_foldSum_val hW, hzero]
  exact foldSum_add_complement hW _

/-- For a block size of the hardware the checksum fits its 32-bit field. -/
theorem toNat_pktCk {k : Nat} (hk : k ≤ 4) (P : Bytes) : (pktCk k P).toNat = genRaw (bits P ++ zeros 32) k := by
  have hlt : genRaw (bits P ++ zeros 32) k < 2 ^ 32 :=
    (genRaw_lt _ k).trans_le (Nat.pow_le_pow_right Nat.two_pos (by omega))
  rw [pktCk, BitVec.toNat_ofNat, Nat.mod_eq_of_lt hlt]

theorem pktOk_pktCk {k : Nat} (hk : 1 ≤ k) (hk' : k ≤ 4) (P : Bytes) : pktOk k (pktCk k P) P = true := by
  rw [pktOk, toNat_pktCk hk']
  exact vfyRaw_append_genRaw (bits P) hk (by omega)

/-- Settles O12: the value fits 32 bits, and for `K` other than 3 the 32 zero bits are whole blocks. -/
theorem packetChecksumIsZeroExtended : Obligations.PacketChecksumIsZeroExtended := by
  refine ⟨fun k P hk hk' => ?_, by decide⟩
  rw [toNat_pktCk hk']
  refine ⟨rfl, genRaw_lt _ k, fun h3 => genRaw_append_zeros (bits P) hk ?_⟩
  obtain rfl | rfl | rfl : k = 1 ∨ k = 2 ∨ k = 4 := by omega
  · exact ⟨4, rfl⟩
  · exact ⟨2, rfl⟩
  · exact ⟨1, rfl⟩

/-- Settles O16: a payload of zero bytes spells 0. -/
theorem zeroPayloadHasTheAllOnesChecksum : Obligations.ZeroPayloadHasTheAllOnesChecksum := by
  intro k n hk hk'
  refine ⟨?_, pktOk_pktCk hk hk' _⟩
  rw [toNat_pktCk hk', bits_replicate_zero, zeros_append]
  exact genRaw_of_sum1c_eq_zero (sum1c_zeros (by omega) _)

/-! ### CKGEN and CKVFY (R108, R109) -/

/-- The four bytes of `be32` carry the 32 bits of the value. -/
theorem bits_be32 (v : BitVec 32) : bits (be32 v) = bstr 32 v.toNat := by
  apply val_injective (by simp)
  rw [val_bstr_of_lt v.isLt]
  change unbe (be32 v) = v.toNat
  have hlt := v.isLt
  simp only [be32, unbe_cons, unbe_nil, BitVec.extractLsb'_toNat, Nat.shiftRight_eq_div_pow, List.length_cons, List.length_nil]
  omega

theorem vfyRaw_bits_append_be32 (k : Nat) (c : BitVec 32) (P : Bytes) :
    vfyRaw (bits (P ++ be32 c)) k = pktOk k c P := by
  rw [bits_append, bits_be32, pktOk]

theorem exec_ckgen_of_within {s : State} {data : Bytes} (h : within data.length s.maxPayload = true) :
    exec (.ckgen data) s = .next (s.respond .ok (be32 (pktCk s.k data))) :=
  if_pos h

theorem exec_ckvfy_of_within {s : State} {data : Bytes} (h : within data.length (maxFrame s.maxPayload) = true) :
    exec (.ckvfy data) s = .next (s.respond .ok [if vfyRaw (bits data) s.k then 0x01 else 0x00]) :=
  if_pos h

/-- A payload within its limit leaves room for up to 6 further bytes in a frame (00_scope.md R5). -/
theorem within_maxFrame {m n : Nat} {limit : Option Nat} (h : within m limit = true) (hn : n ≤ m + 6) :
    within n (maxFrame limit) = true := by
  cases limit with
  | none => rfl
  | some l =>
    have hm : m ≤ l := of_decide_eq_true h
    exact decide_eq_true (show n ≤ l + 6 by omega)

/-- Settles O13: the field adds the complement of the folded sum, so the whole sums to all ones. -/
theorem generatedChecksumVerifies : Obligations.GeneratedChecksumVerifies := by
  refine ⟨fun k P hk hk' => pktOk_pktCk hk hk' P, fun b k hk => ⟨?_, vfyRaw_append_genRaw b hk le_rfl⟩,
    fun s P hs hP => ⟨exec_ckgen_of_within hP, ?_⟩⟩
  · rw [← genRaw_append_zeros b hk dvd_rfl]
    exact vfyRaw_append_genRaw b hk le_rfl
  · obtain ⟨hk, hk', -⟩ := hs
    rw [exec_ckvfy_of_within (within_maxFrame hP (by simp)), vfyRaw_bits_append_be32, pktOk_pktCk hk hk']
    rfl

end Sys2Proof.Machine

/-! ### The mask and the flip (41_bitutil.md R123, R125) -/

namespace Sys2Proof.Machine

/-- R125 at one position: the mask says whether the two strings differ there. -/
theorem getElem?_diffMask {a b : Bits} {i : Nat} (ha : i < a.length) (hb : i < b.length) :
    (diffMask a b)[i]? = some (decide (a[i]? ≠ b[i]?)) := by
  have xor_eq_decide : ∀ x y : Bool, (x ^^ y) = decide (some x ≠ some y) := by decide
  rw [diffMask, List.getElem?_zipWith, List.getElem?_eq_getElem ha, List.getElem?_eq_getElem hb]
  exact congrArg some (xor_eq_decide _ _)

/-- A string and its flipped copy differ at the flipped position and nowhere else. -/
theorem getElem?_ne_flipAt {b : Bits} {i : Nat} (p : Nat) (hi : i < b.length) :
    b[i]? ≠ (flipAt b p)[i]? ↔ i = p := by
  rw [getElem?_flipAt, List.getElem?_eq_getElem hi]
  split
  next h => simp [h]
  next h => simp [h]

/-- Complementing one bit twice restores it, at any position. -/
theorem flipAt_flipAt (b : Bits) (p : Nat) : flipAt (flipAt b p) p = b := by
  refine List.ext_getElem? fun i => ?_
  rw [getElem?_flipAt, getElem?_flipAt]
  split
  next => cases b[i]? <;> simp
  next => rfl

/-- Settles O21: the mask is read position by position, and a flip differs from its string at one position. -/
theorem diffLocatesTheFlippedBit : Obligations.DiffLocatesTheFlippedBit := by
  refine ⟨fun a b h => ⟨by simp [h], fun i hi => getElem?_diffMask hi (h ▸ hi)⟩,
    fun b p _ => ⟨flipAt_flipAt b p, length_flipAt b p, by simp, fun i hi => ?_⟩⟩
  rw [getElem?_diffMask hi (by rwa [length_flipAt])]
  exact congrArg some (decide_eq_decide.mpr (getElem?_ne_flipAt p hi))

end Sys2Proof.Machine

/-! ### Frames and their fields (42_codec.md R142, R145, R148) -/

namespace Sys2Proof.Machine

theorem unbe_lt (B : Bytes) : unbe B < 2 ^ (8 * B.length) := length_bits B ▸ val_lt (bits B)

/-- Byte sequences of one length that spell the same number are equal. -/
theorem unbe_injective {A B : Bytes} (hl : A.length = B.length) (h : unbe A = unbe B) : A = B :=
  bits_injective (val_injective (by rw [length_bits, length_bits, hl]) h)

@[simp] theorem unbe_be16 (v : BitVec 16) : unbe (be16 v) = v.toNat := by
  have hlt := v.isLt
  simp only [be16, unbe_cons, unbe_nil, BitVec.extractLsb'_toNat, Nat.shiftRight_eq_div_pow, List.length_cons, List.length_nil]
  omega

@[simp] theorem unbe_be32 (v : BitVec 32) : unbe (be32 v) = v.toNat := by
  rw [unbe, bits_be32, val_bstr_of_lt v.isLt]

/-- Any two bytes are the `be16` of the number they spell. -/
theorem be16_ofNat_unbe {B : Bytes} (h : B.length = 2) : be16 (BitVec.ofNat 16 (unbe B)) = B := by
  have hlt : unbe B < 2 ^ 16 := by simpa only [h] using unbe_lt B
  apply unbe_injective (by rw [length_be16, h])
  rw [unbe_be16, BitVec.toNat_ofNat, Nat.mod_eq_of_lt hlt]

/-- Any four bytes are the `be32` of the number they spell. -/
theorem be32_ofNat_unbe {B : Bytes} (h : B.length = 4) : be32 (BitVec.ofNat 32 (unbe B)) = B := by
  have hlt : unbe B < 2 ^ 32 := by simpa only [h] using unbe_lt B
  apply unbe_injective (by rw [length_be32, h])
  rw [unbe_be32, BitVec.toNat_ofNat, Nat.mod_eq_of_lt hlt]

theorem dec_of_length_lt {F : Bytes} (h : F.length < 6) : dec F = none := if_pos h

/-- `dec` reads the number off the first 2 bytes, the checksum off the next 4, and leaves the payload. -/
theorem dec_append {A B : Bytes} (hA : A.length = 2) (hB : B.length = 4) (P : Bytes) :
    dec (A ++ B ++ P) = some (BitVec.ofNat 16 (unbe A), BitVec.ofNat 32 (unbe B), P) := by
  have hlen : ¬ (A ++ B ++ P).length < 6 := by simp only [List.length_append]; omega
  have hnumber : (A ++ B ++ P).take 2 = A := by rw [List.append_assoc, List.take_left' hA]
  have hchecksum : ((A ++ B ++ P).drop 2).take 4 = B := by rw [List.append_assoc, List.drop_left' hA, List.take_left' hB]
  have hpayload : (A ++ B ++ P).drop 6 = P := List.drop_left' (by rw [List.length_append, hA, hB])
  rw [dec, if_neg hlen, hnumber, hchecksum, hpayload]

theorem dec_enc (n : BitVec 16) (c : BitVec 32) (P : Bytes) : dec (enc n c P) = some (n, c, P) := by
  rw [enc, dec_append (length_be16 n) (length_be32 c), unbe_be16, unbe_be32, BitVec.ofNat_toNat, BitVec.ofNat_toNat,
    BitVec.setWidth_eq, BitVec.setWidth_eq]

/-- Every frame that is long enough for the header is an encoding. -/
theorem exists_eq_enc {F : Bytes} (h : 6 ≤ F.length) : ∃ n c P, F = enc n c P := by
  have hnumber : (F.take 2).length = 2 := List.length_take_of_le (by omega)
  have hchecksum : ((F.drop 2).take 4).length = 4 := List.length_take_of_le (by rw [List.length_drop]; omega)
  refine ⟨BitVec.ofNat 16 (unbe (F.take 2)), BitVec.ofNat 32 (unbe ((F.drop 2).take 4)), (F.drop 2).drop 4, ?_⟩
  rw [enc, be16_ofNat_unbe hnumber, be32_ofNat_unbe hchecksum, List.append_assoc, List.take_append_drop,
    List.take_append_drop]

/-- Settles O22: `dec` is a left inverse of `enc`, and every frame of 6 or more bytes is an encoding. -/
theorem frameCodecRoundTrip : Obligations.FrameCodecRoundTrip := by
  refine ⟨dec_enc, fun F hF => ?_, fun F hF => dec_of_length_lt hF⟩
  obtain ⟨n, c, P, rfl⟩ := exists_eq_enc hF
  exact ⟨n, c, P, dec_enc n c P, rfl⟩

end Sys2Proof.Machine

/-! ### The configuration (70_reset_and_hazards.md R294) -/

namespace Sys2Proof.Machine

/-! What each named update leaves of the parameters: all of them. -/

@[simp] theorem State.params_log (s : State) (o : Output) : (s.log o).params = s.params := rfl
@[simp] theorem State.params_deliver (s : State) (P : Bytes) : (s.deliver P).params = s.params := rfl
@[simp] theorem State.params_respond (s : State) (st : Status) (r : Bytes) : (s.respond st r).params = s.params := rfl
@[simp] theorem State.params_raise (s : State) (e : Status) (i : Bytes) : (s.raise e i).params = s.params := rfl
@[simp] theorem State.params_illegal (s : State) : s.illegal.params = s.params := rfl
@[simp] theorem State.params_setSs (s : State) (p : Phase) (b : BitVec 1) : (s.setSs p b).params = s.params := rfl
@[simp] theorem State.params_setRs (s : State) (e : BitVec 1) : (s.setRs e).params = s.params := rfl
@[simp] theorem State.params_setErrPv (s : State) : s.setErrPv.params = s.params := rfl
@[simp] theorem State.params_setHalt (s : State) : s.setHalt.params = s.params := rfl
@[simp] theorem State.params_tstart (s : State) (d : BitVec 32) : (s.tstart d).params = s.params := rfl
@[simp] theorem State.params_tcancel (s : State) : s.tcancel.params = s.params := rfl
@[simp] theorem State.params_storeLast (s : State) (F : Bytes) : (s.storeLast F).params = s.params := rfl
@[simp] theorem State.params_drawn (s : State) : s.drawn.params = s.params := by simp [State.params]
@[simp] theorem State.params_chsend (s : State) (p : TxPort) (F : Bytes) : (s.chsend p F).2.params = s.params := by
  simp [State.params]
@[simp] theorem params_resetAsserted (s : State) : (resetAsserted s).params = s.params := rfl

/-- The answer `r` of an operation run in `s` has the parameters of `s`, if it is a state at all. -/
def KeepsParams (s : State) (r : Result) : Prop := ∀ t, r = .next t → t.params = s.params

namespace KeepsParams

variable {s u : State} {r r' : Result}

@[simp] theorem next_iff : KeepsParams s (.next u) ↔ u.params = s.params :=
  ⟨fun h => h u rfl, fun h t ht => by cases ht; exact h⟩

@[simp] theorem of_fault (f : Fault) : KeepsParams s (.fault f) := fun _ h => nomatch h

theorem ite {c : Prop} [Decidable c] (hpos : KeepsParams s r) (hneg : KeepsParams s r') :
    KeepsParams s (if c then r else r') := by
  split <;> assumption

/-- The refusal of illegal operands keeps the parameters, so only the accepted operands matter (30_encoding.md R83). -/
theorem ite_illegal {c : Prop} [Decidable c] (h : KeepsParams s r) : KeepsParams s (if c then r else .next s.illegal) :=
  h.ite (by simp)

end KeepsParams

/-! ### The operations, one by one -/

theorem execCkgen_keepsParams (data : Bytes) (s : State) : KeepsParams s (execCkgen data s) := .ite_illegal (by simp)

theorem execCkvfy_keepsParams (data : Bytes) (s : State) : KeepsParams s (execCkvfy data s) := .ite_illegal (by simp)

theorem execLpad_keepsParams (width : BitVec 16) (value : Bytes) (s : State) :
    KeepsParams s (execLpad width value s) := by
  refine .ite_illegal ?_
  cases leftpad (unbe value) width.toNat with
  | none => simp
  | some b => simp

theorem execFlip_keepsParams (data : Bytes) (s : State) : KeepsParams s (execFlip data s) :=
  .ite_illegal (.ite (by simp) (.ite (by simp) (by simp)))

theorem execDiff_keepsParams (data : Bytes) (s : State) : KeepsParams s (execDiff data s) := .ite_illegal (by simp)

theorem execEncs_keepsParams (n : BitVec 16) (c : BitVec 32) (P : Bytes) (s : State) :
    KeepsParams s (execEncs n c P s) := .ite_illegal (by simp)

theorem execEncr_keepsParams (n : BitVec 16) (c : BitVec 32) (P : Bytes) (s : State) :
    KeepsParams s (execEncr n c P s) := .ite_illegal (by simp)

theorem execDec_keepsParams (role : Role) (frame : Bytes) (s : State) : KeepsParams s (execDec role frame s) := by
  refine .ite_illegal ?_
  cases dec frame with
  | none => simp
  | some fields => simp

theorem execSend_keepsParams (payload : Bytes) (s : State) : KeepsParams s (execSend payload s) := by
  refine .ite_illegal (.ite (by simp) ?_)
  cases s.ss.phase with
  | awaitingCall => simp
  | awaitingAck => simp

theorem execRxack_keepsParams (frame : Bytes) (s : State) : KeepsParams s (execRxack frame s) := by
  refine .ite_illegal (.ite (by simp) ?_)
  cases s.ss.phase with
  | awaitingCall => simp
  | awaitingAck =>
    cases dec frame with
    | none => simp
    | some fields => exact .ite (by simp) (.ite (by simp) (by simp))

theorem execRxpkt_keepsParams (frame : Bytes) (s : State) : KeepsParams s (execRxpkt frame s) := by
  refine .ite_illegal (.ite (by simp) ?_)
  cases dec frame with
  | none => simp
  | some fields => exact .ite (by simp) (.ite (by simp) (by simp))

theorem execTick_keepsParams (s : State) : KeepsParams s (execTick s) := by
  unfold execTick
  cases s.ts with
  | running => exact .ite (by simp [State.params]) (by simp [State.params])
  | idle => simp
  | expired => simp
  | cancelled => simp

theorem execShutdown_keepsParams (s : State) : KeepsParams s (execShutdown s) := by simp [execShutdown]

theorem execTexpd_keepsParams (s : State) : KeepsParams s (execTexpd s) := by simp [execTexpd]

theorem execTstart_keepsParams (d : BitVec 32) (s : State) : KeepsParams s (execTstart d s) := by simp [execTstart]

theorem execTcancel_keepsParams (s : State) : KeepsParams s (execTcancel s) := by simp [execTcancel]

theorem execChsend_keepsParams (port : TxPort) (frame : Bytes) (s : State) :
    KeepsParams s (execChsend port frame s) := by simp [execChsend]

theorem execTmo_keepsParams (s : State) : KeepsParams s (execTmo s) := by
  refine .ite ?_ (by simp)
  cases s.readLast with
  | none => simp
  | some F => simp

theorem exec_keepsParams (i : Instr) (s : State) : KeepsParams s (exec i s) := by
  cases i with
  | ckgen data => exact execCkgen_keepsParams data s
  | ckvfy data => exact execCkvfy_keepsParams data s
  | lpad width value => exact execLpad_keepsParams width value s
  | flip data => exact execFlip_keepsParams data s
  | diff data => exact execDiff_keepsParams data s
  | encs n c P => exact execEncs_keepsParams n c P s
  | encr n c P => exact execEncr_keepsParams n c P s
  | dec role frame => exact execDec_keepsParams role frame s
  | send payload => exact execSend_keepsParams payload s
  | rxack frame => exact execRxack_keepsParams frame s
  | rxpkt frame => exact execRxpkt_keepsParams frame s
  | tick => exact execTick_keepsParams s
  | shutdown => exact execShutdown_keepsParams s
  | texpd => exact execTexpd_keepsParams s
  | tstart d => exact execTstart_keepsParams d s
  | tcancel => exact execTcancel_keepsParams s
  | chsend port frame => exact execChsend_keepsParams port frame s
  | tmo => exact execTmo_keepsParams s

/-! ### Steps -/

theorem present_keepsParams (port : InPort) (item : Bytes) (s : State) : KeepsParams s (present port item s) := by
  unfold present
  cases decode item with
  | illegal => simp
  | op i => exact .ite_illegal (exec_keepsParams i s)

theorem takeStimulus_keepsParams (st : Stimulus) (s : State) : KeepsParams s (takeStimulus st s) := by
  cases st with
  | present port item => exact present_keepsParams port item s
  | controlLoop => exact exec_keepsParams .tmo s
  | resetInput => simp [takeStimulus]

/-- Taking the stimulus off the queue touches no parameter, so the step keeps what its operation or its reset keeps. -/
theorem step_keepsParams (s : State) : KeepsParams s (step s) := by
  unfold step advance
  cases s.stimuli with
  | nil => exact exec_keepsParams .tmo s
  | cons st rest => exact takeStimulus_keepsParams st { s with stimuli := rest }

/-- Settles O50: no operation writes a parameter, and reset loads the configuration registers with what they hold. -/
theorem configurationIsFixed : Obligations.ConfigurationIsFixed := ⟨exec_keepsParams, step_keepsParams⟩

end Sys2Proof.Machine

/-! ### The operation encoding (30_encoding.md R80 to R85) -/

namespace Sys2Proof.Machine

/-! The fields of an item: joining the bytes of a big-endian field gives its number, and the bytes of the joined number
are the bytes (20_memory.md R50). -/

theorem join_be16 (v : BitVec 16) : v.extractLsb' 8 8 ++ v.extractLsb' 0 8 = v := by
  rw [BitVec.extractLsb'_append_extractLsb'_eq_extractLsb' (rfl : 8 = 0 + 8)]
  exact BitVec.extractLsb'_eq_self

theorem join_be32 (v : BitVec 32) :
    v.extractLsb' 24 8 ++ v.extractLsb' 16 8 ++ v.extractLsb' 8 8 ++ v.extractLsb' 0 8 = v := by
  rw [BitVec.extractLsb'_append_extractLsb'_eq_extractLsb' (rfl : 24 = 16 + 8),
    BitVec.extractLsb'_append_extractLsb'_eq_extractLsb' (rfl : 16 = 8 + 8),
    BitVec.extractLsb'_append_extractLsb'_eq_extractLsb' (rfl : 8 = 0 + 8)]
  exact BitVec.extractLsb'_eq_self

theorem be16_join (b1 b0 : Byte) : be16 (b1 ++ b0) = [b1, b0] := by
  rw [be16, BitVec.extractLsb'_append_eq_left, BitVec.extractLsb'_append_eq_right]

theorem be32_join (b3 b2 b1 b0 : Byte) : be32 (b3 ++ b2 ++ b1 ++ b0) = [b3, b2, b1, b0] := by
  have h0 : (b3 ++ b2 ++ b1 ++ b0).extractLsb' 0 8 = b0 := BitVec.extractLsb'_append_eq_right
  have h1 : (b3 ++ b2 ++ b1 ++ b0).extractLsb' 8 8 = b1 :=
    (BitVec.extractLsb'_append_eq_of_le (by decide)).trans BitVec.extractLsb'_append_eq_right
  have h2 : (b3 ++ b2 ++ b1 ++ b0).extractLsb' 16 8 = b2 :=
    (BitVec.extractLsb'_append_eq_of_le (by decide)).trans
      ((BitVec.extractLsb'_append_eq_of_le (by decide)).trans BitVec.extractLsb'_append_eq_right)
  have h3 : (b3 ++ b2 ++ b1 ++ b0).extractLsb' 24 8 = b3 :=
    (BitVec.extractLsb'_append_eq_of_le (by decide)).trans
      ((BitVec.extractLsb'_append_eq_of_le (by decide)).trans BitVec.extractLsb'_append_eq_left)
  exact congrArg₂ _ h3 (congrArg₂ _ h2 (congrArg₂ _ h1 (congrArg₂ _ h0 rfl)))

@[simp] theorem roleOf_roleByte (r : Role) : roleOf (roleByte r) = some r := by
  cases r <;> rfl

theorem roleOf_eq_some_iff (b : Byte) (r : Role) : roleOf b = some r ↔ b = roleByte r := by
  constructor
  · intro h
    unfold roleOf at h
    split at h
    next h0 => cases h; exact h0
    next =>
      split at h
      next h1 => cases h; exact h1
      next => cases h
  · rintro rfl
    exact roleOf_roleByte r

/-! What each format reads, and that it reads it from no other bytes (R80, R83). -/

theorem decodeZ_eq_op_iff (i j : Instr) (rest : Bytes) : decodeZ i rest = .op j ↔ rest = [] ∧ j = i := by
  cases rest with
  | nil => simp [decodeZ, eq_comm]
  | cons b rest => simp [decodeZ]

theorem decodeL_eq_op_iff (f : BitVec 16 → Bytes → Instr) (rest : Bytes) (i : Instr) :
    decodeL f rest = .op i ↔ ∃ w value, rest = be16 w ++ value ∧ i = f w value := by
  constructor
  · intro h
    unfold decodeL at h
    split at h
    next w1 w0 value => cases h; exact ⟨w1 ++ w0, value, by rw [be16_join]; rfl, rfl⟩
    next => cases h
  · rintro ⟨w, value, rfl, rfl⟩
    exact congrArg (fun v => Decoded.op (f v value)) (join_be16 w)

theorem decodeN_eq_op_iff (f : BitVec 16 → BitVec 32 → Bytes → Instr) (rest : Bytes) (i : Instr) :
    decodeN f rest = .op i ↔ ∃ n c P, rest = be16 n ++ be32 c ++ P ∧ i = f n c P := by
  constructor
  · intro h
    unfold decodeN at h
    split at h
    next n1 n0 c3 c2 c1 c0 P =>
      cases h; exact ⟨n1 ++ n0, c3 ++ c2 ++ c1 ++ c0, P, by rw [be16_join, be32_join]; rfl, rfl⟩
    next => cases h
  · rintro ⟨n, c, P, rfl, rfl⟩
    exact congrArg₂ (fun v w => Decoded.op (f v w P)) (join_be16 n) (join_be32 c)

theorem decodeR_eq_op_iff (f : Role → Bytes → Instr) (rest : Bytes) (i : Instr) :
    decodeR f rest = .op i ↔ ∃ r frame, rest = roleByte r :: frame ∧ i = f r frame := by
  cases rest with
  | nil => simp [decodeR]
  | cons b frame =>
    constructor
    · intro h
      cases hr : roleOf b with
      | none => simp [decodeR, hr] at h
      | some r =>
        have hi : Decoded.op (f r frame) = .op i := by simpa [decodeR, hr] using h
        cases hi
        exact ⟨r, frame, by rw [(roleOf_eq_some_iff _ _).1 hr], rfl⟩
    · rintro ⟨r, frame', heq, rfl⟩
      cases heq
      simp [decodeR]

theorem decodeDiff_eq_op_iff (rest : Bytes) (i : Instr) :
    decodeDiff rest = .op i ↔ rest.length % 2 = 0 ∧ i = .diff rest := by
  unfold decodeDiff
  split
  next h => simp [h, eq_comm]
  next h => simp [h]

/-- Settles O2: each format reads back the fields its encoding wrote. -/
theorem decodeOfEncodeIsTheOperation : Obligations.DecodeOfEncodeIsTheOperation := by
  intro i hshape hhost
  cases i with
  | ckgen data => exact ⟨_, rfl, rfl⟩
  | ckvfy data => exact ⟨_, rfl, rfl⟩
  | lpad width value => exact ⟨_, rfl, (decodeL_eq_op_iff _ _ _).2 ⟨width, value, rfl, rfl⟩⟩
  | flip data => exact ⟨_, rfl, rfl⟩
  | diff data => exact ⟨_, rfl, (decodeDiff_eq_op_iff _ _).2 ⟨beq_iff_eq.1 hshape, rfl⟩⟩
  | encs n c P => exact ⟨_, rfl, (decodeN_eq_op_iff _ _ _).2 ⟨n, c, P, rfl, rfl⟩⟩
  | encr n c P => exact ⟨_, rfl, (decodeN_eq_op_iff _ _ _).2 ⟨n, c, P, rfl, rfl⟩⟩
  | dec role frame => exact ⟨_, rfl, (decodeR_eq_op_iff _ _ _).2 ⟨role, frame, rfl, rfl⟩⟩
  | send P => exact ⟨_, rfl, rfl⟩
  | rxack frame => exact ⟨_, rfl, rfl⟩
  | rxpkt frame => exact ⟨_, rfl, rfl⟩
  | tick => exact ⟨_, rfl, rfl⟩
  | shutdown => exact ⟨_, rfl, rfl⟩
  | texpd => exact ⟨_, rfl, rfl⟩
  | tstart d => cases hhost
  | tcancel => cases hhost
  | chsend port frame => cases hhost
  | tmo => cases hhost

/-- The opcodes of R81; every other opcode is reserved (R83). -/
def opcodes : List Byte :=
  [0x01, 0x02, 0x03, 0x04, 0x05, 0x06, 0x07, 0x08, 0x10, 0x11, 0x12, 0x13, 0x14, 0x15]

theorem decode_reserved {op : Byte} (h : op ∉ opcodes) (rest : Bytes) :
    decode (op :: rest) = .illegal (.reservedOpcode op) := by
  simp only [opcodes, List.mem_cons, List.not_mem_nil, or_false, not_or] at h
  obtain ⟨h01, h02, h03, h04, h05, h06, h07, h08, h10, h11, h12, h13, h14, h15⟩ := h
  unfold decode
  dsimp only
  rw [if_neg h01, if_neg h02, if_neg h03, if_neg h04, if_neg h05, if_neg h06, if_neg h07, if_neg h08, if_neg h10,
    if_neg h11, if_neg h12, if_neg h13, if_neg h14, if_neg h15]

/-- An item splits by its opcode: reserved, or one of the 14. -/
theorem mem_opcodes_iff (op : Byte) :
    op ∈ opcodes ↔ op = 0x01 ∨ op = 0x02 ∨ op = 0x03 ∨ op = 0x04 ∨ op = 0x05 ∨ op = 0x06 ∨ op = 0x07 ∨ op = 0x08
      ∨ op = 0x10 ∨ op = 0x11 ∨ op = 0x12 ∨ op = 0x13 ∨ op = 0x14 ∨ op = 0x15 := by
  simp only [opcodes, List.mem_cons, List.not_mem_nil, or_false]

/-- Settles O3: each opcode's format reads only encodings. -/
theorem encodeOfDecodeIsTheItem : Obligations.EncodeOfDecodeIsTheItem := by
  intro item i h
  cases item with
  | nil => cases h
  | cons op rest =>
    by_cases hop : op ∈ opcodes
    · rcases (mem_opcodes_iff op).1 hop with
        rfl | rfl | rfl | rfl | rfl | rfl | rfl | rfl | rfl | rfl | rfl | rfl | rfl | rfl
      · cases h; exact ⟨rfl, rfl, rfl⟩
      · cases h; exact ⟨rfl, rfl, rfl⟩
      · obtain ⟨w, value, rfl, rfl⟩ := (decodeL_eq_op_iff _ _ _).1 h; exact ⟨rfl, rfl, rfl⟩
      · cases h; exact ⟨rfl, rfl, rfl⟩
      · obtain ⟨heven, rfl⟩ := (decodeDiff_eq_op_iff _ _).1 h; exact ⟨rfl, beq_iff_eq.2 heven, rfl⟩
      · obtain ⟨n, c, P, rfl, rfl⟩ := (decodeN_eq_op_iff _ _ _).1 h; exact ⟨rfl, rfl, rfl⟩
      · obtain ⟨n, c, P, rfl, rfl⟩ := (decodeN_eq_op_iff _ _ _).1 h; exact ⟨rfl, rfl, rfl⟩
      · obtain ⟨r, frame, rfl, rfl⟩ := (decodeR_eq_op_iff _ _ _).1 h; exact ⟨rfl, rfl, rfl⟩
      · cases h; exact ⟨rfl, rfl, rfl⟩
      · cases h; exact ⟨rfl, rfl, rfl⟩
      · cases h; exact ⟨rfl, rfl, rfl⟩
      · obtain ⟨rfl, rfl⟩ := (decodeZ_eq_op_iff _ _ _).1 h; exact ⟨rfl, rfl, rfl⟩
      · obtain ⟨rfl, rfl⟩ := (decodeZ_eq_op_iff _ _ _).1 h; exact ⟨rfl, rfl, rfl⟩
      · obtain ⟨rfl, rfl⟩ := (decodeZ_eq_op_iff _ _ _).1 h; exact ⟨rfl, rfl, rfl⟩
    · rw [decode_reserved hop] at h
      cases h

/-- Settles O1: each word is computed. -/
theorem specWordsDecodeToTheirOperations : Obligations.SpecWordsDecodeToTheirOperations := by
  unfold Obligations.SpecWordsDecodeToTheirOperations
  decide

/-! ### Legal and illegal items (R83, R84) -/

theorem within_iff (n : Nat) (limit : Option Nat) : within n limit = true ↔ ∀ m, limit = some m → n ≤ m := by
  cases limit with
  | none => simp [within]
  | some m => simp [within]

theorem within_map_iff (n : Nat) (limit : Option Nat) (f : Nat → Nat) :
    within n (limit.map f) = true ↔ ∀ m, limit = some m → n ≤ f m := by
  cases limit with
  | none => simp [within]
  | some m => simp [within]

theorem within_maxFrame_iff (n : Nat) (limit : Option Nat) :
    within n (maxFrame limit) = true ↔ ∀ m, limit = some m → n ≤ m + 6 := within_map_iff n limit _

theorem maxFrame_map (limit : Option Nat) (f : Nat → Nat) : (maxFrame limit).map f = limit.map fun m => f (m + 6) := by
  cases limit <;> rfl

theorem exists_eq_be16_append {B : Bytes} (h : 2 ≤ B.length) : ∃ w value, B = be16 w ++ value :=
  ⟨_, B.drop 2, by rw [be16_ofNat_unbe (List.length_take_of_le h), List.take_append_drop]⟩

/-- The encoding of an operation is legal on a port exactly if the port is the operation's and its operands are. -/
theorem not_illegalItem_iff {i : Instr} {item : Bytes} (h : encode i = some item) (hshape : shapeOk i = true)
    (mp : Option Nat) (port : InPort) :
    ¬ IllegalItem mp port item ↔ some port = portOf i ∧ withinLimits mp i = true := by
  cases i with
  | ckgen data => cases h; simp [IllegalItem, portOf, withinLimits, within_iff]
  | ckvfy data => cases h; simp [IllegalItem, portOf, withinLimits, within_maxFrame_iff]
  | lpad width value => cases h; simp [IllegalItem, portOf, withinLimits, within_map_iff]
  | flip data => cases h; simp [IllegalItem, portOf, withinLimits, within_maxFrame_iff]
  | diff data =>
    have heven : data.length % 2 = 0 := beq_iff_eq.1 hshape
    cases h; simp [IllegalItem, portOf, withinLimits, maxFrame_map, within_map_iff, heven]
  | encs n c P =>
    have hheader : 6 ≤ 2 + (4 + P.length) ∧ ∀ m, 2 + (4 + P.length) ≤ m + 6 ↔ P.length ≤ m :=
      ⟨by omega, fun m => by omega⟩
    cases h; simp [IllegalItem, portOf, withinLimits, within_maxFrame_iff, hheader]
  | encr n c P =>
    have hheader : 6 ≤ 2 + (4 + P.length) ∧ ∀ m, 2 + (4 + P.length) ≤ m + 6 ↔ P.length ≤ m :=
      ⟨by omega, fun m => by omega⟩
    cases h; simp [IllegalItem, portOf, withinLimits, within_maxFrame_iff, hheader]
  | dec role frame =>
    have hrole : ¬ roleByte role = 0 → roleByte role = 1 := by cases role <;> decide
    cases h; simpa [IllegalItem, portOf, withinLimits, within_maxFrame_iff] using fun _ _ => hrole
  | send P => cases h; simp [IllegalItem, portOf, withinLimits, within_iff]
  | rxack frame => cases h; simp [IllegalItem, portOf, withinLimits, within_maxFrame_iff]
  | rxpkt frame => cases h; simp [IllegalItem, portOf, withinLimits, within_maxFrame_iff]
  | tick => cases h; simp [IllegalItem, portOf, withinLimits]
  | shutdown => cases h; simp [IllegalItem, portOf, withinLimits]
  | texpd => cases h; simp [IllegalItem, portOf, withinLimits]
  | tstart d => cases h
  | tcancel => cases h
  | chsend port frame => cases h
  | tmo => cases h

/-- An item that lacks a part its format needs is illegal on every port. -/
theorem illegalItem_of_decode {item : Bytes} {e : DecodeError} (h : decode item = .illegal e) (mp : Option Nat)
    (port : InPort) : IllegalItem mp port item := by
  by_contra hlegal
  suffices hread : ∃ i, decode item = .op i by
    obtain ⟨i, hi⟩ := hread
    exact nomatch hi.symm.trans h
  cases item with
  | nil => exact absurd (.inl rfl) hlegal
  | cons op rest =>
    have hop : op ∈ opcodes := by
      by_contra hop
      exact hlegal (.inr ⟨op, rest, rfl, .inl hop⟩)
    rcases (mem_opcodes_iff op).1 hop with
      rfl | rfl | rfl | rfl | rfl | rfl | rfl | rfl | rfl | rfl | rfl | rfl | rfl | rfl
    · exact ⟨_, rfl⟩
    · exact ⟨_, rfl⟩
    · have hlen : 2 ≤ rest.length := by by_contra hlen; simp [IllegalItem, hlen] at hlegal
      obtain ⟨w, value, hrest⟩ := exists_eq_be16_append hlen
      exact ⟨_, (decodeL_eq_op_iff _ _ _).2 ⟨w, value, hrest, rfl⟩⟩
    · exact ⟨_, rfl⟩
    · have heven : rest.length % 2 = 0 := by by_contra heven; simp [IllegalItem, heven] at hlegal
      exact ⟨_, (decodeDiff_eq_op_iff _ _).2 ⟨heven, rfl⟩⟩
    · have hlen : 6 ≤ rest.length := by by_contra hlen; simp [IllegalItem, hlen] at hlegal
      obtain ⟨n, c, P, hrest⟩ := exists_eq_enc hlen
      exact ⟨_, (decodeN_eq_op_iff _ _ _).2 ⟨n, c, P, hrest, rfl⟩⟩
    · have hlen : 6 ≤ rest.length := by by_contra hlen; simp [IllegalItem, hlen] at hlegal
      obtain ⟨n, c, P, hrest⟩ := exists_eq_enc hlen
      exact ⟨_, (decodeN_eq_op_iff _ _ _).2 ⟨n, c, P, hrest, rfl⟩⟩
    · cases rest with
      | nil => simp [IllegalItem] at hlegal
      | cons b frame =>
        have hrole : b = 0 ∨ b = 1 := by
          by_contra hrole
          obtain ⟨h0, h1⟩ := not_or.1 hrole
          exact hlegal (.inr ⟨_, _, rfl, .inr (.inr (.inr (.inr (.inl ⟨rfl, .inr ⟨b, frame, rfl, h0, h1⟩⟩))))⟩)
        rcases hrole with rfl | rfl
        · exact ⟨_, rfl⟩
        · exact ⟨_, rfl⟩
    · exact ⟨_, rfl⟩
    · exact ⟨_, rfl⟩
    · exact ⟨_, rfl⟩
    · have hempty : rest = [] := by by_contra hempty; simp [IllegalItem, hempty] at hlegal
      exact ⟨_, (decodeZ_eq_op_iff _ _ _).2 ⟨hempty, rfl⟩⟩
    · have hempty : rest = [] := by by_contra hempty; simp [IllegalItem, hempty] at hlegal
      exact ⟨_, (decodeZ_eq_op_iff _ _ _).2 ⟨hempty, rfl⟩⟩
    · have hempty : rest = [] := by by_contra hempty; simp [IllegalItem, hempty] at hlegal
      exact ⟨_, (decodeZ_eq_op_iff _ _ _).2 ⟨hempty, rfl⟩⟩

/-! ### Presented items (R83, R84; 60_exceptions.md R259) -/

/-- An operation of a port answers operands that are out of shape or above their limit with IllegalCommand. -/
theorem exec_of_not_operandsOk {i : Instr} {port : InPort} {s : State} (hport : portOf i = some port)
    (h : operandsOk s.maxPayload i = false) : exec i s = .next s.illegal := by
  have hneg : ¬ operandsOk s.maxPayload i = true := by simp [h]
  cases i with
  | ckgen data => exact if_neg hneg
  | ckvfy data => exact if_neg hneg
  | lpad width value => exact if_neg hneg
  | flip data => exact if_neg hneg
  | diff data => exact if_neg hneg
  | encs n c P => exact if_neg hneg
  | encr n c P => exact if_neg hneg
  | dec role frame => exact if_neg hneg
  | send P => exact if_neg hneg
  | rxack frame => exact if_neg hneg
  | rxpkt frame => exact if_neg hneg
  | tick => exact absurd rfl hneg
  | shutdown => exact absurd rfl hneg
  | texpd => exact absurd rfl hneg
  | tstart d => cases hport
  | tcancel => cases hport
  | chsend port frame => cases hport
  | tmo => cases hport

/-- `s` after its first stimulus was taken, `rest` what is left (60_exceptions.md R262; log 1). -/
def State.withStimuli (s : State) (rest : List Stimulus) : State := { s with stimuli := rest }

theorem step_of_present {s : State} {port : InPort} {item : Bytes} {rest : List Stimulus}
    (h : s.stimuli = .present port item :: rest) : step s = present port item (s.withStimuli rest) := by
  simp only [step, advance, h, takeStimulus, State.withStimuli]

theorem present_of_decode_illegal {item : Bytes} {e : DecodeError} (h : decode item = .illegal e) (port : InPort)
    (s : State) : present port item s = .next s.illegal := by
  simp only [present, h]

theorem present_of_decode_op {item : Bytes} {i : Instr} {port : InPort} (h : decode item = .op i)
    (hport : portOf i = some port) (s : State) : present port item s = exec i s := by
  simp only [present, h, if_pos hport]

theorem present_of_wrong_port {item : Bytes} {i : Instr} {port : InPort} (h : decode item = .op i)
    (hport : portOf i ≠ some port) (s : State) : present port item s = .next s.illegal := by
  simp only [present, h, if_neg hport]

/-- Settles O4: an item the decoder does not read is illegal, and of one it reads the encoding tells port and limits. -/
theorem presentedItemIsAnsweredOrRun : Obligations.PresentedItemIsAnsweredOrRun := by
  intro s port item rest hs
  rw [step_of_present hs]
  cases hd : decode item with
  | illegal e =>
    exact ⟨fun _ => present_of_decode_illegal hd _ _, fun hlegal => absurd (illegalItem_of_decode hd _ _) hlegal⟩
  | op i =>
    obtain ⟨hencode, hshape, -⟩ := encodeOfDecodeIsTheItem item i hd
    have hiff := not_illegalItem_iff hencode hshape s.maxPayload port
    refine ⟨fun hillegal => ?_, fun hlegal => ?_⟩
    · by_cases hport : portOf i = some port
      · have hlimits : ¬ withinLimits s.maxPayload i = true := fun hlimits => hiff.2 ⟨hport.symm, hlimits⟩ hillegal
        rw [present_of_decode_op hd hport]
        exact exec_of_not_operandsOk hport (by simp [operandsOk, State.withStimuli, hlimits])
      · exact present_of_wrong_port hd hport _
    · obtain ⟨hport, hlimits⟩ := hiff.1 hlegal
      exact ⟨i, rfl, hport.symm, by simp [operandsOk, hshape, hlimits], present_of_decode_op hd hport.symm _⟩

/-- Settles O5: the item decodes to an operation of the port it stands on. -/
theorem stepRunsThePresentedOperation : Obligations.StepRunsThePresentedOperation :=
  fun _ _ _ _ _ hs hd hport => (step_of_present hs).trans (present_of_decode_op hd hport _)

theorem exec_tmo_of_not_enabled {s : State} (h : tmoEnabled s = false) : exec .tmo s = .next s :=
  if_neg (by simp [h])

/-- Settles O6: with or without a turn of the control loop, what runs is TMO. -/
theorem controlLoopTurnAndQuiescence : Obligations.ControlLoopTurnAndQuiescence := by
  have hquiet : ∀ s : State, s.stimuli = [] → step s = exec .tmo s := fun s hs => by
    simp only [step, advance, hs]
  refine ⟨fun s rest hs => ?_, hquiet, fun s hs hoff => (hquiet s hs).trans (exec_tmo_of_not_enabled hoff)⟩
  simp only [step, advance, hs, takeStimulus]

end Sys2Proof.Machine

/-! ### What an operation can do (43_timer.md R161, 45_sender.md section 2, 46_receiver.md R226) -/

namespace Sys2Proof.Machine

theorem dec_eq_some_iff {F : Bytes} {n : BitVec 16} {c : BitVec 32} {P : Bytes} :
    dec F = some (n, c, P) ↔ F = enc n c P := by
  constructor
  · intro h
    by_cases hlen : F.length < 6
    · rw [dec_of_length_lt hlen] at h; cases h
    · obtain ⟨n', c', P', rfl⟩ := exists_eq_enc (Nat.le_of_not_lt hlen)
      rw [dec_enc] at h
      cases h
      rfl
  · rintro rfl
    exact dec_enc n c P

/-- The timer is stopped after TCANCEL. -/
theorem cancelledTimer_eq (ts : TimerState) : cancelledTimer ts = .idle ∨ cancelledTimer ts = .cancelled := by
  cases ts <;> simp [cancelledTimer]

/-- TCANCEL leaves a stopped timer as it is. -/
theorem cancelledTimer_of_stopped {ts : TimerState} (h : ts ≠ .running ∧ ts ≠ .expired) : cancelledTimer ts = ts := by
  cases ts <;> simp_all [cancelledTimer]

theorem tmoEnabled_iff (s : State) :
    tmoEnabled s = true ↔ s.halt = false ∧ s.ss.phase = .awaitingAck ∧ s.ts = .expired := by
  simp [tmoEnabled, hasExpired, and_assoc]

/-! The states the operations of the protocol leave, named by the updates they are made of. -/

/-- After an accepted SEND of `P` (45_sender.md R191). -/
def State.sent (s : State) (P : Bytes) : State :=
  ((((s.storeLast (s.dataFrame P)).chsend .txs (s.dataFrame P)).2.tstart s.cfgTimeout).setSs .awaitingAck s.ss.bit).respond
    .ok [outcomeByte ((s.storeLast (s.dataFrame P)).chsend .txs (s.dataFrame P)).1]

/-- After an accepted ACK (45_sender.md R194). -/
def State.acked (s : State) : State := (s.tcancel.setSs .awaitingCall (~~~s.ss.bit)).respond .ok [0x00]

/-- After a retransmission of `F` (45_sender.md R196). -/
def State.retransmitted (s : State) (F : Bytes) : State :=
  ((s.chsend .txs F).2.tstart s.cfgTimeout).log (.outcome (s.chsend .txs F).1)

/-- After `ack(n)` went through the channel and RXPKT answered `st` with `head` before the outcome (46_receiver.md R222,
R223). -/
def State.reacked (s : State) (n : BitVec 16) (st : Status) (head : Bytes) : State :=
  (s.chsend .txr (s.ack n)).2.respond st (head ++ [outcomeByte (s.chsend .txr (s.ack n)).1])

/-- After a packet with payload `P` was accepted (46_receiver.md R224). -/
def State.accepted (s : State) (P : Bytes) : State :=
  (((s.chsend .txr (s.ack (zext16 s.rs))).2.deliver P).setRs (~~~s.rs)).respond
    .ok [0x00, outcomeByte (s.chsend .txr (s.ack (zext16 s.rs))).1]

/-- After SHUTDOWN (47_session.md R240). -/
def State.shutDown (s : State) : State := s.setHalt.tcancel.respond .ok []

/-- `i` arrives on a port that answers (30_encoding.md R82). -/
def Responds (i : Instr) : Prop := portOf i = some .cmd ∨ portOf i = some .rxs ∨ portOf i = some .rxr

/-- All that an operation of a port or TMO can do in `s`: the rows of the transition tables with the guard of each. The
constructors are the only places where a register changes, a frame is emitted or a payload is delivered. -/
inductive Effect (s : State) : Instr → Result → Prop
  | answers {i : Instr} (hi : Responds i) (st : Status) (r : Bytes) : Effect s i (.next (s.respond st r))
  | flips (data r : Bytes) : Effect s (.flip data) (.next (s.drawn.respond .ok r))
  | sends (P : Bytes) (hlen : within P.length s.maxPayload = true) (hhalt : s.halt = false)
      (hphase : s.ss.phase = .awaitingCall) : Effect s (.send P) (.next (s.sent P))
  | violates (P : Bytes) (hlen : within P.length s.maxPayload = true) (hhalt : s.halt = false)
      (hphase : s.ss.phase = .awaitingAck) : Effect s (.send P) (.next (s.setErrPv.respond .protocolViolation []))
  | acks (c : BitVec 32) (P : Bytes)
      (hlen : within (enc (zext16 s.ss.bit) c P).length (maxFrame s.maxPayload) = true) (hhalt : s.halt = false)
      (hphase : s.ss.phase = .awaitingAck) (hok : pktOk s.k c P = true) : Effect s (.rxack (enc (zext16 s.ss.bit) c P)) (.next s.acked)
  | rejects (F : Bytes) (hhalt : s.halt = false) :
      Effect s (.rxpkt F) (.next (s.reacked (zext16 (~~~s.rs)) .checksumMismatch []))
  | repeats (F : Bytes) (n : BitVec 16) (hhalt : s.halt = false) : Effect s (.rxpkt F) (.next (s.reacked n .ok [0x01]))
  | accepts (c : BitVec 32) (P : Bytes)
      (hlen : within (enc (zext16 s.rs) c P).length (maxFrame s.maxPayload) = true) (hhalt : s.halt = false)
      (hok : pktOk s.k c P = true) :
      Effect s (.rxpkt (enc (zext16 s.rs) c P)) (.next (s.accepted P))
  | rests (hts : s.ts ≠ .running) : Effect s .tick (.next s)
  | counts (hts : s.ts = .running) (hcnt : 1 < s.cnt) : Effect s .tick (.next { s with cnt := s.cnt - 1 })
  | expires (hts : s.ts = .running) (hcnt : s.cnt ≤ 1) : Effect s .tick (.next { s with cnt := 0, ts := .expired })
  | shuts : Effect s .shutdown (.next s.shutDown)
  | waits (hoff : tmoEnabled s = false) : Effect s .tmo (.next s)
  | retransmits (F : Bytes) (hon : tmoEnabled s = true) (hF : s.readLast = some F) :
      Effect s .tmo (.next (s.retransmitted F))
  | overruns (hF : s.readLast = none) : Effect s .tmo (.fault .lastBeyondBuffer)

namespace Effect

/-- Operands that are not legal are answered, so only the legal ones matter (30_encoding.md R83). -/
theorem ite_illegal {s : State} {i : Instr} {r : Result} {c : Prop} [Decidable c] (hi : Responds i)
    (h : c → Effect s i r) : Effect s i (if c then r else .next s.illegal) := by
  split
  next hc => exact h hc
  next => exact .answers hi .illegalCommand []

end Effect

/-! ### The operations, one by one -/

theorem execLpad_effect (width : BitVec 16) (value : Bytes) (s : State) :
    Effect s (.lpad width value) (execLpad width value s) := by
  refine .ite_illegal (.inl rfl) fun _ => ?_
  cases leftpad (unbe value) width.toNat with
  | none => exact .answers (.inl rfl) .invalidWidth []
  | some b => exact .answers (.inl rfl) .ok _

theorem execFlip_effect (data : Bytes) (s : State) : Effect s (.flip data) (execFlip data s) := by
  refine .ite_illegal (.inl rfl) fun _ => ?_
  split
  next => exact .answers (.inl rfl) .illegalCommand []
  next =>
    split
    next => exact .answers (.inl rfl) .illegalCommand []
    next => exact .flips data _

theorem execDec_effect (role : Role) (frame : Bytes) (s : State) : Effect s (.dec role frame) (execDec role frame s) := by
  refine .ite_illegal (.inl rfl) fun _ => ?_
  cases dec frame with
  | none => exact .answers (.inl rfl) .malformedPacket []
  | some fields => exact .answers (.inl rfl) .ok _

theorem execSend_effect (P : Bytes) (s : State) : Effect s (.send P) (execSend P s) := by
  refine .ite_illegal (.inl rfl) fun hlen => ?_
  split
  next => exact .answers (.inl rfl) .halted []
  next hhalt =>
    cases hphase : s.ss.phase with
    | awaitingCall => exact .sends P hlen (Bool.not_eq_true _ ▸ hhalt) hphase
    | awaitingAck => exact .violates P hlen (Bool.not_eq_true _ ▸ hhalt) hphase

theorem execRxack_effect (F : Bytes) (s : State) : Effect s (.rxack F) (execRxack F s) := by
  refine .ite_illegal (.inr (.inl rfl)) fun hlen => ?_
  split
  next => exact .answers (.inr (.inl rfl)) .halted []
  next hhalt =>
    cases hphase : s.ss.phase with
    | awaitingCall => exact .answers (.inr (.inl rfl)) .ok [0x01]
    | awaitingAck =>
      cases hdec : dec F with
      | none => exact .answers (.inr (.inl rfl)) .malformedPacket []
      | some fields =>
        obtain ⟨n, c, P⟩ := fields
        obtain rfl := dec_eq_some_iff.1 hdec
        dsimp only
        split
        next => exact .answers (.inr (.inl rfl)) .checksumMismatch []
        next hok =>
          split
          next => exact .answers (.inr (.inl rfl)) .ok [0x02]
          next hn =>
            obtain rfl := not_not.1 hn
            exact .acks c P hlen (by simpa using hhalt) hphase (by simpa using hok)

theorem execRxpkt_effect (F : Bytes) (s : State) : Effect s (.rxpkt F) (execRxpkt F s) := by
  refine .ite_illegal (.inr (.inr rfl)) fun hlen => ?_
  split
  next => exact .answers (.inr (.inr rfl)) .halted []
  next hhalt =>
    have hhalt : s.halt = false := by simpa using hhalt
    cases hdec : dec F with
    | none => exact .answers (.inr (.inr rfl)) .malformedPacket []
    | some fields =>
      obtain ⟨n, c, P⟩ := fields
      obtain rfl := dec_eq_some_iff.1 hdec
      dsimp only
      split
      next => exact .rejects _ hhalt
      next hok =>
        split
        next => exact .repeats _ n hhalt
        next hn =>
          obtain rfl := not_not.1 hn
          exact .accepts c P hlen hhalt (by simpa using hok)

theorem execTick_effect (s : State) : Effect s .tick (execTick s) := by
  unfold execTick
  split
  next hts =>
    split
    next hcnt => exact .expires hts hcnt
    next hcnt => exact .counts hts (BitVec.not_le.1 hcnt)
  next hts => exact .rests (by simp [hts])
  next hts => exact .rests (by simp [hts])
  next hts => exact .rests (by simp [hts])

theorem execTmo_effect (s : State) : Effect s .tmo (execTmo s) := by
  unfold execTmo
  split
  next hon =>
    cases hF : s.readLast with
    | none => exact .overruns hF
    | some F => exact .retransmits F hon hF
  next hoff => exact .waits (by simpa using hoff)

theorem exec_effect {i : Instr} (hi : (portOf i).isSome = true ∨ i = .tmo) (s : State) : Effect s i (exec i s) := by
  cases i with
  | ckgen data => exact .ite_illegal (.inl rfl) fun _ => .answers (.inl rfl) _ _
  | ckvfy data => exact .ite_illegal (.inl rfl) fun _ => .answers (.inl rfl) _ _
  | lpad width value => exact execLpad_effect width value s
  | flip data => exact execFlip_effect data s
  | diff data => exact .ite_illegal (.inl rfl) fun _ => .answers (.inl rfl) _ _
  | encs n c P => exact .ite_illegal (.inl rfl) fun _ => .answers (.inl rfl) _ _
  | encr n c P => exact .ite_illegal (.inl rfl) fun _ => .answers (.inl rfl) _ _
  | dec role frame => exact execDec_effect role frame s
  | send P => exact execSend_effect P s
  | rxack F => exact execRxack_effect F s
  | rxpkt F => exact execRxpkt_effect F s
  | tick => exact execTick_effect s
  | shutdown => exact .shuts
  | texpd => exact .answers (.inl rfl) _ _
  | tstart d => simp [portOf] at hi
  | tcancel => simp [portOf] at hi
  | chsend port frame => simp [portOf] at hi
  | tmo => exact execTmo_effect s

/-! ### What a step can do -/

/-- What makes a step run `i`: a turn of the control loop, or the item that encodes `i` next on its port; `rest` is what
waits after it. -/
inductive Taken (s : State) (rest : List Stimulus) : Instr → Prop
  | turn : Taken s rest .tmo
  | presented {i : Instr} {port : InPort} {item : Bytes} (hs : s.stimuli = .present port item :: rest)
      (hitem : encode i = some item) (hport : portOf i = some port) : Taken s rest i

namespace Taken

variable {s : State} {rest : List Stimulus} {i : Instr}

theorem stimuli_eq {port : InPort} {item : Bytes} (h : Taken s rest i) (hitem : encode i = some item)
    (hport : portOf i = some port) : s.stimuli = .present port item :: rest := by
  cases h with
  | turn => cases hport
  | presented hs hitem' hport' =>
    cases hitem.symm.trans hitem'
    cases hport.symm.trans hport'
    exact hs

end Taken

theorem exec_tmo_effect {s t : State} (h : exec .tmo s = .next t) : Effect s .tmo (.next t) :=
  h ▸ exec_effect (.inr rfl) s

/-- A step asserts reset, refuses an item, or takes an operation with its effect. -/
theorem step_effect {s t : State} (h : step s = .next t) :
    (∃ rest, s.stimuli = .resetInput :: rest ∧ t = resetAsserted (s.withStimuli rest))
    ∨ (∃ rest, t = (s.withStimuli rest).illegal)
    ∨ ∃ rest i, Taken s rest i ∧ Effect (s.withStimuli rest) i (.next t) := by
  rcases step_cases h with ⟨hs, hrun⟩ | ⟨rest, hs, hrun⟩ | ⟨rest, hs, ht⟩ | ⟨port, item, rest, hs, ht⟩
    | ⟨port, item, rest, i, hs, hdec, hport, hrun⟩
  · exact .inr (.inr ⟨s.stimuli, .tmo, .turn, exec_tmo_effect hrun⟩)
  · exact .inr (.inr ⟨rest, .tmo, .turn, exec_tmo_effect hrun⟩)
  · exact .inl ⟨rest, hs, ht⟩
  · exact .inr (.inl ⟨rest, ht⟩)
  · obtain ⟨hitem, -, -⟩ := encodeOfDecodeIsTheItem item i hdec
    exact .inr (.inr ⟨rest, i, .presented hs hitem hport, hrun ▸ exec_effect (.inl (hport ▸ rfl)) _⟩)

end Sys2Proof.Machine

/-! ### What each effect leaves (10_state.md R20) -/

namespace Sys2Proof.Machine

/-! The sender half under the updates that do not write it. -/

@[simp] theorem senderHalf_deliver (s : State) (P : Bytes) : senderHalf (s.deliver P) = senderHalf s := rfl
@[simp] theorem senderHalf_respond (s : State) (st : Status) (r : Bytes) : senderHalf (s.respond st r) = senderHalf s := rfl
@[simp] theorem senderHalf_setRs (s : State) (e : BitVec 1) : senderHalf (s.setRs e) = senderHalf s := rfl
@[simp] theorem senderHalf_setErrPv (s : State) : senderHalf s.setErrPv = senderHalf s := rfl
@[simp] theorem senderHalf_drawn (s : State) : senderHalf s.drawn = senderHalf s := by simp [senderHalf]
@[simp] theorem senderHalf_chsend (s : State) (p : TxPort) (F : Bytes) : senderHalf (s.chsend p F).2 = senderHalf s := by
  simp [senderHalf]
@[simp] theorem senderHalf_reacked (s : State) (n : BitVec 16) (st : Status) (head : Bytes) :
    senderHalf (s.reacked n st head) = senderHalf s := by simp [State.reacked]
@[simp] theorem senderHalf_accepted (s : State) (P : Bytes) : senderHalf (s.accepted P) = senderHalf s := by
  simp [State.accepted]

/-! ### The invariants I1 to I5 (10_state.md R36) -/

/-- I1 to I5 speak of the sender half, `HALT` and `CFG_TIMEOUT` only. -/
theorem ProtocolInv.congr {s t : State} (h : ProtocolInv s) (hhalf : senderHalf t = senderHalf s) (hhalt : t.halt = s.halt)
    (hcfg : t.cfgTimeout = s.cfgTimeout) : ProtocolInv t := by
  simp only [senderHalf, Prod.mk.injEq] at hhalf
  obtain ⟨hss, hts, hcnt, -, -, hvalid⟩ := hhalf
  obtain ⟨i1, i2, i3, i4, i5⟩ := h
  constructor
  · rwa [hss, hvalid]
  · rwa [hhalt, hss, hts]
  · rwa [hss, hts]
  · rwa [hts, hcnt, hcfg]
  · rwa [hhalt, hts]

/-- With the timer stopped only I1 and the phase are left to check. -/
theorem ProtocolInv.of_stopped {t : State} (hts : t.ts = .idle ∨ t.ts = .cancelled)
    (i1 : t.ss.phase = .awaitingAck → t.lastValid = true) (i2 : t.halt = false → t.ss.phase ≠ .awaitingAck) :
    ProtocolInv t where
  i1 := i1
  i2 hhalt hphase := absurd hphase (i2 hhalt)
  i3 _ := hts
  i4 hrun := by rcases hts with h | h <;> cases hrun.symm.trans h
  i5 _ := by rcases hts with h | h <;> simp [h]

/-- With the timer just armed and a frame kept the sender may await its ACK. -/
theorem ProtocolInv.of_armed {t : State} (hts : t.ts = .running) (hcnt : t.cnt = t.cfgTimeout) (hhalt : t.halt = false)
    (hphase : t.ss.phase = .awaitingAck) (hvalid : t.lastValid = true) : ProtocolInv t where
  i1 _ := hvalid
  i2 _ _ := .inl hts
  i3 hcall := nomatch hphase.symm.trans hcall
  i4 _ := hcnt ▸ BitVec.le_refl _
  i5 h := nomatch hhalt.symm.trans h

theorem Effect.keeps_protocolInv {s t : State} {i : Instr} (h : ProtocolInv s) (e : Effect s i (.next t)) :
    ProtocolInv t := by
  obtain ⟨i1, i2, i3, i4, i5⟩ := id h
  cases e with
  | answers => exact h.congr (by simp) rfl rfl
  | flips => exact h.congr (by simp) (by simp) (by simp)
  | sends P _ hhalt => exact .of_armed rfl (by simp [State.sent]) (by simpa [State.sent]) rfl (by simp [State.sent])
  | violates => exact h.congr (by simp) rfl rfl
  | acks => exact .of_stopped (cancelledTimer_eq s.ts) (fun h => nomatch h) (fun _ h => nomatch h)
  | rejects => exact h.congr (by simp) (by simp [State.reacked]) (by simp [State.reacked])
  | repeats => exact h.congr (by simp) (by simp [State.reacked]) (by simp [State.reacked])
  | accepts => exact h.congr (by simp) (by simp [State.accepted]) (by simp [State.accepted])
  | rests => exact h
  | counts hts hcnt =>
    have hle : s.cnt - 1 ≤ s.cfgTimeout := by
      have := i4 hts
      bv_omega
    exact ⟨i1, i2, i3, fun _ => hle, i5⟩
  | expires hts =>
    have hcall : s.ss.phase ≠ .awaitingCall := by simpa [hts] using i3
    exact ⟨i1, fun _ _ => .inr rfl, fun h => absurd h hcall, fun h => (nomatch h), fun hhalt => absurd hts (i5 hhalt).1⟩
  | shuts => exact .of_stopped (cancelledTimer_eq s.ts) i1 (fun h => nomatch h)
  | waits => exact h
  | retransmits F hon =>
    obtain ⟨hhalt, hphase, -⟩ := (tmoEnabled_iff s).1 hon
    exact .of_armed rfl (by simp [State.retransmitted]) (by simpa [State.retransmitted])
      (by simpa [State.retransmitted]) (by simpa [State.retransmitted] using i1 hphase)

theorem State.resetWith_protocolInv (p : Params) : ProtocolInv (State.resetWith p) :=
  .of_stopped (.inl rfl) (fun h => nomatch h) (fun _ h => nomatch h)

/-- Settles O55: reset meets the invariants, and every effect keeps them. -/
theorem stepKeepsTheProtocolInvariant : Obligations.StepKeepsTheProtocolInvariant := by
  intro s t h hstep
  rcases step_effect hstep with ⟨rest, -, rfl⟩ | ⟨rest, rfl⟩ | ⟨rest, i, -, heffect⟩
  · exact (State.resetWith_protocolInv s.params).congr rfl rfl rfl
  · exact h.congr rfl rfl rfl
  · exact heffect.keeps_protocolInv (h.congr (t := s.withStimuli rest) rfl rfl rfl)

/-! ### The buffer (10_state.md R26) -/

/-- The buffer part of a state. -/
def bufferOf (s : State) : Memory × Nat × Bool := (s.last, s.lastLen, s.lastValid)

theorem LastHolds.congr {s t : State} {F : Bytes} (h : LastHolds s F) (hbuf : bufferOf t = bufferOf s) : LastHolds t F := by
  simp only [bufferOf, Prod.mk.injEq] at hbuf
  obtain ⟨hlast, hlen, hvalid⟩ := hbuf
  obtain ⟨h1, h2, h3⟩ := h
  exact ⟨hvalid.trans h1, hlen.trans h2, by rwa [hlast]⟩

theorem BufferInv.congr {s t : State} (h : BufferInv s) (hbuf : bufferOf t = bufferOf s) (hparams : t.params = s.params)
    (hss : t.ss.phase = .awaitingAck → t.ss = s.ss) : BufferInv t := by
  have hmax : t.maxPayload = s.maxPayload := congrArg Params.maxPayload hparams
  have hk : t.k = s.k := congrArg (fun p => p.k.toNat) hparams
  have hholds : ∀ F, LastHolds s F → LastHolds t F := fun F hF => hF.congr hbuf
  simp only [bufferOf, Prod.mk.injEq] at hbuf
  obtain ⟨hlast, hlen, hvalid⟩ := hbuf
  constructor
  · rw [hlast]; exact h.canonical
  · rw [hlen, hmax]; exact h.length_within
  · rw [hlast, hlen]; exact h.written
  · rw [hvalid, hlen]; exact h.empty
  · intro hv
    obtain ⟨b, P, hP, hF⟩ := h.frame (hvalid ▸ hv)
    exact ⟨b, P, hmax ▸ hP, hk ▸ hholds _ hF⟩
  · intro hphase
    have hss := hss hphase
    obtain ⟨P, hP, hF⟩ := h.awaiting (hss ▸ hphase)
    exact ⟨P, hmax ▸ hP, by rw [hss, hk]; exact hholds _ hF⟩

/-- SEND keeps the frame it transmitted. -/
theorem State.sent_lastHolds (s : State) (P : Bytes) : LastHolds (s.sent P) (s.dataFrame P) :=
  (s.storeLast_holds (s.dataFrame P)).congr (by simp [bufferOf, State.sent])

theorem State.sent_last (s : State) (P : Bytes) : (s.sent P).last = (s.storeLast (s.dataFrame P)).last := by
  simp [State.sent]

@[simp] theorem State.length_dataFrame (s : State) (P : Bytes) : (s.dataFrame P).length = P.length + 6 := length_enc _ _ P

@[simp] theorem State.sent_lastLen (s : State) (P : Bytes) : (s.sent P).lastLen = P.length + 6 := by simp [State.sent]

@[simp] theorem State.sent_ss (s : State) (P : Bytes) : (s.sent P).ss = ⟨.awaitingAck, s.ss.bit⟩ := rfl

@[simp] theorem State.sent_params (s : State) (P : Bytes) : (s.sent P).params = s.params := by simp [State.sent]

theorem State.sent_read (s : State) (P : Bytes) (a : Nat) : (s.sent P).last.read a = (s.dataFrame P)[a]? := by
  rw [State.sent_last, State.storeLast_read]

theorem State.sent_bufferInv {s : State} (h : BufferInv s) {P : Bytes} (hlen : within P.length s.maxPayload = true) :
    BufferInv (s.sent P) := by
  have hmax : (s.sent P).maxPayload = s.maxPayload := congrArg Params.maxPayload (s.sent_params P)
  have hk : (s.sent P).k = s.k := congrArg (fun p => p.k.toNat) (s.sent_params P)
  have hholds : LastHolds (s.sent P) (enc (zext16 s.ss.bit) (pktCk (s.sent P).k P) P) := by
    rw [hk]; exact s.sent_lastHolds P
  constructor
  · rw [State.sent_last]; exact State.storeLast_wf h.canonical _
  · rw [State.sent_lastLen, hmax]; exact within_maxFrame hlen le_rfl
  · intro a
    rw [State.sent_read, State.sent_lastLen]
    simp
  · exact fun hv => nomatch hv.symm.trans (s.sent_lastHolds P).1
  · exact fun _ => ⟨s.ss.bit, P, hmax.symm ▸ hlen, hholds⟩
  · exact fun _ => ⟨P, hmax.symm ▸ hlen, hholds⟩

theorem Effect.keeps_bufferInv {s t : State} {i : Instr} (h : BufferInv s) (e : Effect s i (.next t)) : BufferInv t := by
  cases e with
  | answers => exact h.congr rfl rfl fun _ => rfl
  | flips => exact h.congr (by simp [bufferOf]) (by simp) (by simp)
  | sends P hlen => exact State.sent_bufferInv h hlen
  | violates => exact h.congr rfl rfl fun _ => rfl
  | acks => exact h.congr rfl rfl fun h => nomatch h
  | rejects => exact h.congr (by simp [bufferOf, State.reacked]) (by simp [State.reacked]) (by simp [State.reacked])
  | repeats => exact h.congr (by simp [bufferOf, State.reacked]) (by simp [State.reacked]) (by simp [State.reacked])
  | accepts => exact h.congr (by simp [bufferOf, State.accepted]) (by simp [State.accepted]) (by simp [State.accepted])
  | rests => exact h
  | counts => exact h.congr rfl rfl fun _ => rfl
  | expires => exact h.congr rfl rfl fun _ => rfl
  | shuts => exact h.congr rfl rfl fun _ => rfl
  | waits => exact h
  | retransmits =>
    exact h.congr (by simp [bufferOf, State.retransmitted]) (by simp [State.retransmitted]) (by simp [State.retransmitted])

theorem State.resetWith_bufferInv (p : Params) : BufferInv (State.resetWith p) where
  canonical := rfl
  length_within := (within_maxFrame_iff _ _).2 fun _ _ => Nat.zero_le _
  written a := by simp [State.resetWith]
  empty _ := rfl
  frame h := nomatch h
  awaiting h := nomatch h

/-- Settles O56: reset empties the buffer, an accepted SEND fills it with its frame, and no other effect writes it. -/
theorem stepKeepsTheBufferInvariant : Obligations.StepKeepsTheBufferInvariant := by
  intro s t h hstep
  rcases step_effect hstep with ⟨rest, -, rfl⟩ | ⟨rest, rfl⟩ | ⟨rest, i, -, heffect⟩
  · exact (State.resetWith_bufferInv s.params).congr rfl rfl fun _ => rfl
  · exact h.congr rfl rfl fun _ => rfl
  · exact heffect.keeps_bufferInv (h.congr (t := s.withStimuli rest) rfl rfl fun _ => rfl)

/-- Settles O54: reset stops the timer and empties the buffer, and the default instance has `K` 4. -/
theorem resetMeetsTheInvariants : Obligations.ResetMeetsTheInvariants :=
  ⟨fun p => ⟨State.resetWith_protocolInv p, State.resetWith_bufferInv p⟩, State.resetWith_protocolInv _,
    State.resetWith_bufferInv _, by decide, by decide, rfl⟩

end Sys2Proof.Machine

/-! ### What each effect outputs (10_state.md R35) -/

namespace Sys2Proof.Machine

@[simp] theorem channelEvents_storeLast (s : State) (G : Bytes) (p : TxPort) (d : Draws) (F : Bytes) :
    channelEvents (s.storeLast G) p d F = channelEvents s p d F := rfl
@[simp] theorem channelOutcome_storeLast (s : State) (G : Bytes) (d : Draws) (F : Bytes) :
    channelOutcome (s.storeLast G) d F = channelOutcome s d F := rfl

theorem State.sent_out (s : State) (P : Bytes) :
    (s.sent P).out = s.out ++ (channelEvents s .txs (s.storeLast (s.dataFrame P)).draws (s.dataFrame P)
      ++ [.respond .ok [outcomeByte (channelOutcome s (s.storeLast (s.dataFrame P)).draws (s.dataFrame P))]]) := by
  simp [State.sent]
theorem State.acked_out (s : State) : s.acked.out = s.out ++ [.respond .ok [0x00]] := rfl
theorem State.retransmitted_out (s : State) (F : Bytes) :
    (s.retransmitted F).out
      = s.out ++ (channelEvents s .txs s.draws F ++ [.outcome (channelOutcome s s.draws F)]) := by
  simp [State.retransmitted]
theorem State.reacked_out (s : State) (n : BitVec 16) (st : Status) (head : Bytes) :
    (s.reacked n st head).out = s.out ++ (channelEvents s .txr s.draws (s.ack n)
      ++ [.respond st (head ++ [outcomeByte (channelOutcome s s.draws (s.ack n))])]) := by
  simp [State.reacked]
theorem State.accepted_out (s : State) (P : Bytes) :
    (s.accepted P).out = s.out ++ (channelEvents s .txr s.draws (s.ack (zext16 s.rs))
      ++ [.deliver P, .respond .ok [0x00, outcomeByte (channelOutcome s s.draws (s.ack (zext16 s.rs)))]]) := by
  simp [State.accepted]
theorem State.shutDown_out (s : State) : s.shutDown.out = s.out ++ [.respond .ok []] := rfl

/-- An operation arrives on a port, or is TMO, or is invoked by another operation (30_encoding.md R81, R85). -/
theorem instr_cases (i : Instr) :
    ((portOf i).isSome = true ∨ i = .tmo) ∨ (∃ d, i = .tstart d) ∨ i = .tcancel ∨ ∃ p F, i = .chsend p F := by
  cases i <;> simp [portOf]

/-- Outputs are appended, with one response from an operation of a port that answers and none from the others. -/
theorem Effect.out_append {s t : State} {i : Instr} (e : Effect s i (.next t)) :
    ∃ o, t.out = s.out ++ o
      ∧ (statuses o).length = if portOf i = some .cmd ∨ portOf i = some .rxs ∨ portOf i = some .rxr then 1 else 0 := by
  cases e with
  | answers hi st r => exact ⟨[.respond st r], rfl, (if_pos hi).symm⟩
  | flips data r => exact ⟨[.respond .ok r], by simp, rfl⟩
  | sends P => exact ⟨_, s.sent_out P, by simp [portOf]⟩
  | violates P => exact ⟨[.respond .protocolViolation []], rfl, rfl⟩
  | acks c P => exact ⟨_, s.acked_out, rfl⟩
  | rejects F => exact ⟨_, s.reacked_out _ _ _, by simp [portOf]⟩
  | repeats F n => exact ⟨_, s.reacked_out n _ _, by simp [portOf]⟩
  | accepts c P => exact ⟨_, s.accepted_out P, by simp [portOf]⟩
  | rests => exact ⟨[], (List.append_nil _).symm, rfl⟩
  | counts => exact ⟨[], (List.append_nil _).symm, rfl⟩
  | expires => exact ⟨[], (List.append_nil _).symm, rfl⟩
  | shuts => exact ⟨_, s.shutDown_out, rfl⟩
  | waits => exact ⟨[], (List.append_nil _).symm, rfl⟩
  | retransmits F => exact ⟨_, s.retransmitted_out F, by simp [portOf]⟩

/-- Settles O49: every effect appends, and the invoked operations append without a response. -/
theorem everyOperationAnswersOnce : Obligations.EveryOperationAnswersOnce := by
  intro i s t h
  rcases instr_cases i with hi | ⟨d, rfl⟩ | rfl | ⟨p, F, rfl⟩
  · exact Effect.out_append (h ▸ exec_effect hi s)
  · cases h; exact ⟨[], (List.append_nil _).symm, rfl⟩
  · cases h; exact ⟨[], (List.append_nil _).symm, rfl⟩
  · cases h
    exact ⟨channelEvents s p s.draws F ++ [.outcome (channelOutcome s s.draws F)], by simp, by simp [portOf]⟩

/-! ### Errors (60_exceptions.md R250, R264) -/

theorem mem_statuses_drop {s t : State} {o : List Output} {st : Status} (hout : t.out = s.out ++ o) :
    st ∈ statuses (t.out.drop s.out.length) ↔ st ∈ statuses o := by
  rw [hout, List.drop_left]

/-- What an operation that answers the error `st` leaves as it was. -/
def ErrorFrame (s t : State) (st : Status) : Prop :=
  senderHalf t = senderHalf s ∧ t.rs = s.rs ∧ t.halt = s.halt ∧ t.params = s.params
    ∧ deliveries t.out = deliveries s.out
    ∧ (st ≠ .protocolViolation → t.errPv = s.errPv)
    ∧ (st ≠ .checksumMismatch → emittedOn .txs t.out = emittedOn .txs s.out ∧ emittedOn .txr t.out = emittedOn .txr s.out)

theorem Effect.errorFrame {s t : State} {i : Instr} {st : Status} (e : Effect s i (.next t))
    (hst : st ∈ statuses (t.out.drop s.out.length)) (herr : st ≠ .ok) : ErrorFrame s t st := by
  cases e with
  | answers hi st' r => exact ⟨rfl, rfl, rfl, rfl, by simp, fun _ => rfl, fun _ => by simp⟩
  | flips data r => simp [herr] at hst
  | sends P => simp [mem_statuses_drop (s.sent_out P), herr] at hst
  | violates P =>
    have hpv : st = .protocolViolation := by simpa using hst
    exact ⟨rfl, rfl, rfl, rfl, by simp, fun h => absurd hpv h, fun _ => by simp⟩
  | acks c P => simp [mem_statuses_drop s.acked_out, herr] at hst
  | rejects F =>
    have hmismatch : st = .checksumMismatch := by simpa [mem_statuses_drop (s.reacked_out _ _ _)] using hst
    exact ⟨by simp, by simp [State.reacked], by simp [State.reacked], by simp [State.reacked], by simp [State.reacked_out],
      fun _ => by simp [State.reacked], fun h => absurd hmismatch h⟩
  | repeats F n => simp [mem_statuses_drop (s.reacked_out _ _ _), herr] at hst
  | accepts c P => simp [mem_statuses_drop (s.accepted_out P), herr] at hst
  | rests => simp at hst
  | counts => simp at hst
  | expires => simp at hst
  | shuts => simp [mem_statuses_drop s.shutDown_out, herr] at hst
  | waits => simp at hst
  | retransmits F => simp [mem_statuses_drop (s.retransmitted_out F)] at hst

/-- Settles O48: the effects that answer an error write nothing else, and the invoked operations do not answer. -/
theorem errorsChangeNothingElse : Obligations.ErrorsChangeNothingElse := by
  intro i s t st h hst herr
  rcases instr_cases i with hi | ⟨d, rfl⟩ | rfl | ⟨p, F, rfl⟩
  · exact Effect.errorFrame (h ▸ exec_effect hi s) hst herr
  · cases h; simp at hst
  · cases h; simp at hst
  · cases h; simp at hst

/-! ### Who writes which register (10_state.md R22 to R28) -/

theorem timer_of_senderHalf {s t : State} (h : senderHalf t = senderHalf s) : t.ts = s.ts ∧ t.cnt = s.cnt := by
  simp only [senderHalf, Prod.mk.injEq] at h
  obtain ⟨-, hts, hcnt, -⟩ := h
  exact ⟨hts, hcnt⟩

theorem cancelledTimer_cases (ts : TimerState) :
    cancelledTimer ts = ts ∨ (ts = .running ∧ cancelledTimer ts = .cancelled ∨ ts = .expired ∧ cancelledTimer ts = .idle) := by
  cases ts <;> simp [cancelledTimer]

/-- The rows of 43_timer.md R161 that an effect can be on. -/
def TimerRow (s t : State) (i : Instr) : Prop :=
  (t.ts = s.ts ∧ t.cnt = s.cnt)
  ∨ (t.ts = .running ∧ t.cnt = s.cfgTimeout)
  ∨ (t.cnt = s.cnt ∧ (s.ts = .running ∧ t.ts = .cancelled ∨ s.ts = .expired ∧ t.ts = .idle))
  ∨ (i = .tick ∧ s.ts = .running
      ∧ (s.cnt ≤ 1 ∧ t.ts = .expired ∧ t.cnt = 0 ∨ 1 < s.cnt ∧ t.ts = .running ∧ t.cnt = s.cnt - 1))

theorem TimerRow.of_cancelled {s t : State} {i : Instr} (hts : t.ts = cancelledTimer s.ts) (hcnt : t.cnt = s.cnt) :
    TimerRow s t i := by
  rcases cancelledTimer_cases s.ts with h | h
  · exact .inl ⟨hts.trans h, hcnt⟩
  · exact .inr (.inr (.inl ⟨hcnt, hts ▸ h⟩))

theorem Effect.timerRow {s t : State} {i : Instr} (e : Effect s i (.next t)) : TimerRow s t i := by
  cases e with
  | answers => exact .inl ⟨rfl, rfl⟩
  | flips => exact .inl (timer_of_senderHalf (by simp))
  | sends P => exact .inr (.inl ⟨rfl, rfl⟩)
  | violates => exact .inl ⟨rfl, rfl⟩
  | acks => exact .of_cancelled rfl rfl
  | rejects => exact .inl (timer_of_senderHalf (by simp))
  | repeats => exact .inl (timer_of_senderHalf (by simp))
  | accepts => exact .inl (timer_of_senderHalf (by simp))
  | rests => exact .inl ⟨rfl, rfl⟩
  | counts hts hcnt => exact .inr (.inr (.inr ⟨rfl, hts, .inr ⟨hcnt, hts, rfl⟩⟩))
  | expires hts hcnt => exact .inr (.inr (.inr ⟨rfl, hts, .inl ⟨hcnt, rfl, rfl⟩⟩))
  | shuts => exact .of_cancelled rfl rfl
  | waits => exact .inl ⟨rfl, rfl⟩
  | retransmits => exact .inr (.inl ⟨rfl, rfl⟩)

/-- Settles O27: every effect is on a row of the timer's table, and the row of TICK was presented. -/
theorem timerChangesOnlyAsTheTableSays : Obligations.TimerChangesOnlyAsTheTableSays := by
  intro s t hstep
  rcases step_effect hstep with ⟨rest, hs, rfl⟩ | ⟨rest, rfl⟩ | ⟨rest, i, htaken, heffect⟩
  · exact .inr (.inr (.inr (.inr ⟨rest, hs, rfl, rfl⟩)))
  · exact .inl ⟨rfl, rfl⟩
  · rcases heffect.timerRow with h | h | h | ⟨rfl, h⟩
    · exact .inl h
    · exact .inr (.inl h)
    · exact .inr (.inr (.inl h))
    · exact .inr (.inr (.inr (.inl ⟨rest, htaken.stimuli_eq rfl rfl, h⟩)))

/-- Only an accepted SEND writes the buffer (45_sender.md R198). -/
theorem Effect.buffer {s t : State} {i : Instr} (e : Effect s i (.next t)) :
    bufferOf t = bufferOf s
    ∨ ∃ P, i = .send P ∧ s.halt = false ∧ s.ss.phase = .awaitingCall ∧ LastHolds t (s.dataFrame P) := by
  cases e with
  | answers => exact .inl rfl
  | flips => exact .inl (by simp [bufferOf])
  | sends P _ hhalt hphase => exact .inr ⟨P, rfl, hhalt, hphase, s.sent_lastHolds P⟩
  | violates => exact .inl rfl
  | acks => exact .inl rfl
  | rejects => exact .inl (by simp [bufferOf, State.reacked])
  | repeats => exact .inl (by simp [bufferOf, State.reacked])
  | accepts => exact .inl (by simp [bufferOf, State.accepted])
  | rests => exact .inl rfl
  | counts => exact .inl rfl
  | expires => exact .inl rfl
  | shuts => exact .inl rfl
  | waits => exact .inl rfl
  | retransmits => exact .inl (by simp [bufferOf, State.retransmitted])

/-- Settles O40: the one effect that writes the buffer is SEND's, and its item stood on CMD. -/
theorem onlyAcceptedSendWritesLast : Obligations.OnlyAcceptedSendWritesLast := by
  intro s t hstep hchange
  rcases step_effect hstep with ⟨rest, hs, -⟩ | ⟨rest, rfl⟩ | ⟨rest, i, htaken, heffect⟩
  · exact .inl ⟨rest, hs⟩
  · exact absurd rfl hchange
  · rcases heffect.buffer with h | ⟨P, rfl, hhalt, hphase, hholds⟩
    · exact absurd h hchange
    · exact .inr ⟨P, rest, htaken.stimuli_eq rfl rfl, hhalt, hphase, hholds⟩

/-- Only an accepted ACK changes the sequence bit (45_sender.md R194). -/
theorem Effect.sequenceBit {s t : State} {i : Instr} (e : Effect s i (.next t)) :
    t.ss.bit = s.ss.bit
    ∨ ∃ c P, i = .rxack (enc (zext16 s.ss.bit) c P) ∧ s.halt = false ∧ s.ss.phase = .awaitingAck
        ∧ pktOk s.k c P = true ∧ t.ss = ⟨.awaitingCall, ~~~s.ss.bit⟩ := by
  cases e with
  | answers => exact .inl rfl
  | flips => exact .inl (by simp)
  | sends => exact .inl rfl
  | violates => exact .inl rfl
  | acks c P _ hhalt hphase hok => exact .inr ⟨c, P, rfl, hhalt, hphase, hok, rfl⟩
  | rejects => exact .inl (by simp [State.reacked])
  | repeats => exact .inl (by simp [State.reacked])
  | accepts => exact .inl (by simp [State.accepted])
  | rests => exact .inl rfl
  | counts => exact .inl rfl
  | expires => exact .inl rfl
  | shuts => exact .inl rfl
  | waits => exact .inl rfl
  | retransmits => exact .inl (by simp [State.retransmitted])

/-- Settles O41: the one effect that changes the sequence bit is RXACK's accepting branch, and its item stood on RXS. -/
theorem sequenceBitChangesOnlyOnAcceptedAck : Obligations.SequenceBitChangesOnlyOnAcceptedAck := by
  intro s t hstep hchange
  rcases step_effect hstep with ⟨rest, hs, -⟩ | ⟨rest, rfl⟩ | ⟨rest, i, htaken, heffect⟩
  · exact .inl ⟨rest, hs⟩
  · exact absurd rfl hchange
  · rcases heffect.sequenceBit with h | ⟨c, P, rfl, hhalt, hphase, hok, hss⟩
    · exact absurd h hchange
    · exact .inr ⟨c, P, rest, htaken.stimuli_eq rfl rfl, hhalt, hphase, hok, hss⟩

/-- Only an accepted packet changes `RS` and delivers (46_receiver.md R224). -/
theorem Effect.delivery {s t : State} {i : Instr} (e : Effect s i (.next t)) :
    (t.rs = s.rs ∧ deliveries t.out = deliveries s.out)
    ∨ ∃ c P, i = .rxpkt (enc (zext16 s.rs) c P) ∧ s.halt = false ∧ pktOk s.k c P = true
        ∧ t.rs = ~~~s.rs ∧ deliveries t.out = deliveries s.out ++ [P] := by
  cases e with
  | answers => exact .inl ⟨rfl, by simp⟩
  | flips => exact .inl ⟨by simp, by simp⟩
  | sends P => exact .inl ⟨by simp [State.sent], by simp [State.sent_out]⟩
  | violates => exact .inl ⟨rfl, by simp⟩
  | acks => exact .inl ⟨rfl, by simp [State.acked_out]⟩
  | rejects => exact .inl ⟨by simp [State.reacked], by simp [State.reacked_out]⟩
  | repeats => exact .inl ⟨by simp [State.reacked], by simp [State.reacked_out]⟩
  | accepts c P _ hhalt hok => exact .inr ⟨c, P, rfl, hhalt, hok, rfl, by simp [State.accepted_out]⟩
  | rests => exact .inl ⟨rfl, rfl⟩
  | counts => exact .inl ⟨rfl, rfl⟩
  | expires => exact .inl ⟨rfl, rfl⟩
  | shuts => exact .inl ⟨rfl, by simp [State.shutDown_out]⟩
  | waits => exact .inl ⟨rfl, rfl⟩
  | retransmits => exact .inl ⟨by simp [State.retransmitted], by simp [State.retransmitted_out]⟩

/-- Settles O44: the one effect that changes `RS` or delivers is RXPKT's accepting branch, and its item stood on RXR. -/
theorem deliveryOnlyOnAcceptedPacket : Obligations.DeliveryOnlyOnAcceptedPacket := by
  intro s t hstep hchange
  rcases step_effect hstep with ⟨rest, hs, -⟩ | ⟨rest, rfl⟩ | ⟨rest, i, htaken, heffect⟩
  · exact .inl ⟨rest, hs⟩
  · simp [State.withStimuli] at hchange
  · rcases heffect.delivery with ⟨hrs, hdel⟩ | ⟨c, P, rfl, hhalt, hok, hrs, hdel⟩
    · exact absurd hchange (by simp [hrs, hdel, State.withStimuli])
    · exact .inr ⟨c, P, rest, htaken.stimuli_eq rfl rfl, hhalt, hok, hrs, hdel⟩

/-- `HALT` is set by SHUTDOWN only (10_state.md R28). -/
theorem Effect.halt {s t : State} {i : Instr} (e : Effect s i (.next t)) :
    t.halt = s.halt ∨ i = .shutdown ∧ t.halt = true := by
  cases e with
  | answers => exact .inl rfl
  | flips => exact .inl (by simp)
  | sends => exact .inl (by simp [State.sent])
  | violates => exact .inl rfl
  | acks => exact .inl rfl
  | rejects => exact .inl (by simp [State.reacked])
  | repeats => exact .inl (by simp [State.reacked])
  | accepts => exact .inl (by simp [State.accepted])
  | rests => exact .inl rfl
  | counts => exact .inl rfl
  | expires => exact .inl rfl
  | shuts => exact .inr ⟨rfl, rfl⟩
  | waits => exact .inl rfl
  | retransmits => exact .inl (by simp [State.retransmitted])

/-- `ERR.PV` is set by a SEND while awaiting an ACK only (10_state.md R27). -/
theorem Effect.errPv {s t : State} {i : Instr} (e : Effect s i (.next t)) :
    t.errPv = s.errPv
    ∨ ∃ P, i = .send P ∧ t.errPv = true ∧ s.halt = false ∧ s.ss.phase = .awaitingAck
        ∧ within P.length s.maxPayload = true := by
  cases e with
  | answers => exact .inl rfl
  | flips => exact .inl (by simp)
  | sends => exact .inl (by simp [State.sent])
  | violates P hlen hhalt hphase => exact .inr ⟨P, rfl, rfl, hhalt, hphase, hlen⟩
  | acks => exact .inl rfl
  | rejects => exact .inl (by simp [State.reacked])
  | repeats => exact .inl (by simp [State.reacked])
  | accepts => exact .inl (by simp [State.accepted])
  | rests => exact .inl rfl
  | counts => exact .inl rfl
  | expires => exact .inl rfl
  | shuts => exact .inl rfl
  | waits => exact .inl rfl
  | retransmits => exact .inl (by simp [State.retransmitted])

/-- Settles O47: each flag has one effect that writes it, and it writes 1. -/
theorem haltAndErrAreSticky : Obligations.HaltAndErrAreSticky := by
  intro s t hstep hnoreset
  rcases step_effect hstep with ⟨rest, hs, -⟩ | ⟨rest, rfl⟩ | ⟨rest, i, htaken, heffect⟩
  · exact absurd hs (hnoreset rest)
  · exact ⟨fun h => h, fun h => h, fun h h' => (nomatch h.symm.trans h'), fun h h' => (nomatch h.symm.trans h')⟩
  · refine ⟨fun h => ?_, fun h => ?_, fun h h' => ?_, fun h h' => ?_⟩
    · rcases heffect.halt with hkeep | ⟨-, hset⟩
      · exact hkeep.trans h
      · exact hset
    · rcases heffect.errPv with hkeep | ⟨-, -, hset, -⟩
      · exact hkeep.trans h
      · exact hset
    · rcases heffect.halt with hkeep | ⟨rfl, -⟩
      · exact nomatch h'.symm.trans (hkeep.trans h)
      · exact ⟨rest, htaken.stimuli_eq rfl rfl⟩
    · rcases heffect.errPv with hkeep | ⟨P, rfl, -, hcause⟩
      · exact nomatch h'.symm.trans (hkeep.trans h)
      · exact ⟨P, rest, htaken.stimuli_eq rfl rfl, hcause⟩

/-! ### The halted state (47_session.md R242) -/

/-- Nothing the outside could see of the protocol changes from `s` to `t`. -/
def Silent (s t : State) : Prop :=
  protocolRegisters t = protocolRegisters s
    ∧ emittedOn .txs t.out = emittedOn .txs s.out ∧ emittedOn .txr t.out = emittedOn .txr s.out
    ∧ deliveries t.out = deliveries s.out

theorem Silent.respond (s : State) (st : Status) (r : Bytes) : Silent s (s.respond st r) :=
  ⟨rfl, by simp, by simp, by simp⟩

/-- While halted every guard of a protocol effect is false, and a stopped timer stays as it is. -/
theorem Effect.silent_of_halted {s t : State} {i : Instr} (h : ProtocolInv s) (hhalt : s.halt = true)
    (e : Effect s i (.next t)) : Silent s t := by
  have hstopped := h.i5 hhalt
  cases e with
  | answers hi st r => exact .respond s st r
  | flips => exact ⟨by simp [protocolRegisters], by simp, by simp, by simp⟩
  | sends P _ hrun => exact nomatch hhalt.symm.trans hrun
  | violates P _ hrun => exact nomatch hhalt.symm.trans hrun
  | acks c P _ hrun => exact nomatch hhalt.symm.trans hrun
  | rejects F hrun => exact nomatch hhalt.symm.trans hrun
  | repeats F n hrun => exact nomatch hhalt.symm.trans hrun
  | accepts c P _ hrun => exact nomatch hhalt.symm.trans hrun
  | rests => exact ⟨rfl, rfl, rfl, rfl⟩
  | counts hts => exact absurd hts hstopped.1
  | expires hts => exact absurd hts hstopped.1
  | shuts =>
    refine ⟨?_, by simp [State.shutDown_out], by simp [State.shutDown_out], by simp [State.shutDown_out]⟩
    simp [protocolRegisters, senderHalf, State.shutDown, cancelledTimer_of_stopped hstopped, hhalt]
  | waits => exact ⟨rfl, rfl, rfl, rfl⟩
  | retransmits F hon =>
    obtain ⟨hrun, -⟩ := (tmoEnabled_iff s).1 hon
    exact nomatch hhalt.symm.trans hrun

/-- Settles O46: taking a stimulus shows nothing, and no effect of a halted block does. -/
theorem haltedBlockStaysSilent : Obligations.HaltedBlockStaysSilent := by
  intro s t h hhalt hstep hnoreset
  rcases step_effect hstep with ⟨rest, hs, -⟩ | ⟨rest, rfl⟩ | ⟨rest, i, htaken, heffect⟩
  · exact absurd hs (hnoreset rest)
  · exact Silent.respond (s.withStimuli rest) .illegalCommand []
  · exact heffect.silent_of_halted (s := s.withStimuli rest) (h.congr rfl rfl rfl) hhalt

/-! ### No step stops (93_implementation_defined.md, end of part 2) -/

/-- Only a read of `LAST` beyond its end stops an operation. -/
theorem Effect.exists_next {s : State} {i : Instr} {r : Result} (hlen : within s.lastLen (maxFrame s.maxPayload) = true)
    (e : Effect s i r) : ∃ t, r = .next t := by
  cases e with
  | overruns hF =>
    obtain ⟨F, hF'⟩ := State.readLast_isSome hlen
    exact nomatch hF.symm.trans hF'
  | _ => exact ⟨_, rfl⟩

theorem present_exists_next (port : InPort) (item : Bytes) {s : State}
    (hlen : within s.lastLen (maxFrame s.maxPayload) = true) : ∃ t, present port item s = .next t := by
  cases hdec : decode item with
  | illegal e => exact ⟨_, present_of_decode_illegal hdec port s⟩
  | op i =>
    by_cases hport : portOf i = some port
    · rw [present_of_decode_op hdec hport]
      exact (exec_effect (.inl (hport ▸ rfl)) s).exists_next hlen
    · exact ⟨_, present_of_wrong_port hdec hport s⟩

/-- Settles O57: with `LAST_LEN` within the buffer whatever a step takes answers a next state. -/
theorem noStepStops : Obligations.NoStepStops := by
  intro s h
  have htmo : ∀ rest, ∃ t, exec .tmo (s.withStimuli rest) = .next t := fun rest =>
    Effect.exists_next (s := s.withStimuli rest) h.length_within (exec_effect (.inr rfl) _)
  unfold step advance
  cases hs : s.stimuli with
  | nil => exact (exec_effect (.inr rfl) s).exists_next h.length_within
  | cons st rest =>
    cases st with
    | present port item => exact present_exists_next port item (s := s.withStimuli rest) h.length_within
    | controlLoop => exact htmo rest
    | resetInput => exact ⟨_, rfl⟩

end Sys2Proof.Machine

/-! ### The legal operands of each operation (30_encoding.md R84) -/

namespace Sys2Proof.Machine

theorem within_add_six (n : Nat) (limit : Option Nat) : within (n + 6) (maxFrame limit) = within n limit := by
  rw [Bool.eq_iff_iff, within_maxFrame_iff, within_iff]
  simp

theorem operandsOk_lpad_iff (mp : Option Nat) (width : BitVec 16) (value : Bytes) :
    operandsOk mp (.lpad width value) = true ↔ mp = none ∨ value.length ≤ 8192 := by
  cases mp with
  | none => simp [operandsOk, shapeOk, withinLimits, within]
  | some m => simp [operandsOk, shapeOk, withinLimits, within]

theorem operandsOk_diff_iff (mp : Option Nat) (data : Bytes) :
    operandsOk mp (.diff data) = true
      ↔ data.length % 2 = 0 ∧ within data.length ((maxFrame mp).map (2 * ·)) = true := by
  simp [operandsOk, shapeOk, withinLimits]

theorem operandsOk_encs (mp : Option Nat) (n : BitVec 16) (c : BitVec 32) (P : Bytes) :
    operandsOk mp (.encs n c P) = within P.length mp := within_add_six P.length mp

theorem operandsOk_encr (mp : Option Nat) (n : BitVec 16) (c : BitVec 32) (P : Bytes) :
    operandsOk mp (.encr n c P) = within P.length mp := within_add_six P.length mp

/-! ### CKGEN, CKVFY, ENCS, ENCR and DEC -/

/-- Settles O17: within the limit the operations answer what the engine computes, above it they refuse. -/
theorem checksumOperationsRespondTheResult : Obligations.ChecksumOperationsRespondTheResult := by
  refine fun data s => ⟨exec_ckgen_of_within, exec_of_not_operandsOk (i := .ckgen data) rfl, fun h => ?_,
    exec_of_not_operandsOk (i := .ckvfy data) rfl⟩
  rw [exec_ckvfy_of_within h]
  simp only [vfyRaw_iff]
  rfl

theorem bits_be16 (v : BitVec 16) : bits (be16 v) = bstr 16 v.toNat := by
  apply val_injective (by simp)
  rw [val_bstr_of_lt v.isLt]
  exact unbe_be16 v

theorem enc_take_two (n : BitVec 16) (c : BitVec 32) (P : Bytes) : (enc n c P).take 2 = be16 n := rfl
theorem enc_drop_two_take_four (n : BitVec 16) (c : BitVec 32) (P : Bytes) :
    ((enc n c P).drop 2).take 4 = be32 c := rfl

/-- Settles O23: the header is `be16` of the number and `be32` of the checksum. -/
theorem frameHeaderIsBigEndian : Obligations.FrameHeaderIsBigEndian := by
  intro n c P
  rw [enc_take_two, enc_drop_two_take_four]
  exact ⟨rfl, unbe_be16 n, unbe_be32 c, bits_be16 n, bits_be32 c⟩

/-- Settles O24: the two encoders differ in their opcode only. -/
theorem encodersRespondTheFrame : Obligations.EncodersRespondTheFrame := by
  refine fun n c P s => ⟨fun h => ⟨?_, ?_⟩, fun h => ⟨?_, ?_⟩⟩
  · exact if_pos ((operandsOk_encs _ n c P).trans h)
  · exact if_pos ((operandsOk_encr _ n c P).trans h)
  · exact exec_of_not_operandsOk rfl ((operandsOk_encs _ n c P).trans h)
  · exact exec_of_not_operandsOk rfl ((operandsOk_encr _ n c P).trans h)

theorem exec_dec_of_length_lt {role : Role} {F : Bytes} {s : State} (h : within F.length (maxFrame s.maxPayload) = true)
    (hlen : F.length < 6) : exec (.dec role F) s = .next (s.raise .malformedPacket []) := by
  have hops : operandsOk s.maxPayload (.dec role F) = true := h
  simp only [exec, execDec, hops, ↓reduceIte, dec_of_length_lt hlen]

theorem exec_dec_enc {role : Role} {n : BitVec 16} {c : BitVec 32} {P : Bytes} {s : State}
    (h : within (enc n c P).length (maxFrame s.maxPayload) = true) :
    exec (.dec role (enc n c P)) s = .next (s.respond .ok (enc n c P)) := by
  have hops : operandsOk s.maxPayload (.dec role (enc n c P)) = true := h
  simp only [exec, execDec, hops, ↓reduceIte, dec_enc]
  rfl

/-- Settles O25: the fields of a frame, written again in wire order, are the frame. -/
theorem decRespondsTheFields : Obligations.DecRespondsTheFields := by
  refine fun role F s => ⟨exec_of_not_operandsOk (i := .dec role F) rfl, exec_dec_of_length_lt, fun h hlen => ?_⟩
  obtain ⟨n, c, P, rfl⟩ := exists_eq_enc hlen
  exact exec_dec_enc h

/-! ### The timer (43_timer.md) -/

theorem State.tcancel_eq_self {s : State} (h : cancelledTimer s.ts = s.ts) : s.tcancel = s :=
  congrArg (fun ts => ({ s with ts := ts } : State)) h

theorem exec_tcancel_of_eq {s : State} {ts : TimerState} (h : cancelledTimer s.ts = ts) :
    exec .tcancel s = .next { s with ts := ts } :=
  congrArg (fun ts => Host.Outcome.next ({ s with ts := ts } : State)) h

/-- `s` with timer `ts` at count `c`. -/
def State.withTimer (s : State) (ts : TimerState) (c : BitVec 32) : State := { s with ts := ts, cnt := c }

theorem State.withTimer_self (s : State) : s.withTimer s.ts s.cnt = s := rfl

theorem exec_tick_of_ne_running {s : State} (h : s.ts ≠ .running) : exec .tick s = .next s := by
  change execTick s = _
  unfold execTick
  split
  next hts => exact absurd hts h
  next => rfl
  next => rfl
  next => rfl

theorem exec_tick_of_running (s : State) (c : BitVec 32) :
    exec .tick (s.withTimer .running c)
      = .next (if c ≤ 1 then s.withTimer .expired 0 else s.withTimer .running (c - 1)) := by
  change (if c ≤ 1 then _ else _) = _
  split
  next => rfl
  next => rfl

/-- Settles O26: each row of the table of 43_timer.md R161. -/
theorem timerTransitionTable : Obligations.TimerTransitionTable := by
  refine fun d s => ⟨rfl, fun h => ⟨?_, ?_⟩, fun h => ⟨?_, fun hcnt => ?_, fun hcnt => ?_⟩, fun h => ⟨?_, ?_⟩,
    fun h => ⟨?_, ?_⟩⟩
  · exact congrArg _ (State.tcancel_eq_self (by rw [h]; rfl))
  · exact exec_tick_of_ne_running (by simp [h])
  · exact exec_tcancel_of_eq (by rw [h]; rfl)
  · rw [← s.withTimer_self, h, exec_tick_of_running, if_pos hcnt]
    rfl
  · rw [← s.withTimer_self, h, exec_tick_of_running, if_neg (BitVec.not_le.2 hcnt)]
    rfl
  · exact exec_tcancel_of_eq (by rw [h]; rfl)
  · exact exec_tick_of_ne_running (by simp [h])
  · exact congrArg _ (State.tcancel_eq_self (by rw [h]; rfl))
  · exact exec_tick_of_ne_running (by simp [h])

theorem execAll_cons {i : Instr} {s t : State} (h : exec i s = .next t) (is : List Instr) :
    execAll (i :: is) s = execAll is t := by
  rw [execAll, h]

/-- TICKs after the expiry change nothing. -/
theorem execAll_ticks_of_ne_running {s : State} (h : s.ts ≠ .running) (n : Nat) :
    execAll (List.replicate n .tick) s = .next s := by
  induction n with
  | zero => rfl
  | succ n ih => rw [List.replicate_succ, execAll_cons (exec_tick_of_ne_running h), ih]

/-- A running timer counts down to 1 and then expires (R168). -/
theorem execAll_ticks_of_running (s : State) (c : BitVec 32) (n : Nat) :
    ∃ c', execAll (List.replicate n .tick) (s.withTimer .running c)
      = .next (s.withTimer (if n < max c.toNat 1 then .running else .expired) c') := by
  induction n generalizing c with
  | zero => exact ⟨c, by rw [if_pos (by omega)]; rfl⟩
  | succ n ih =>
    rw [List.replicate_succ, execAll_cons (exec_tick_of_running s c)]
    by_cases hc : c ≤ 1
    · have hlast : c.toNat ≤ 1 := by simpa [BitVec.le_def] using hc
      refine ⟨0, ?_⟩
      rw [if_pos hc, if_neg (by omega)]
      exact execAll_ticks_of_ne_running (by simp [State.withTimer]) n
    · have hsub : (c - 1).toNat + 1 = c.toNat := by bv_omega
      have hpos : 1 < c.toNat := by bv_omega
      obtain ⟨c', hrun⟩ := ih (c - 1)
      have hiff : n < max (c - 1).toNat 1 ↔ n + 1 < max c.toNat 1 := by omega
      simp only [hiff] at hrun
      exact ⟨c', by rw [if_neg hc, hrun]⟩

/-- Settles O28: TSTART sets the timer running, and then it counts. -/
theorem countdownExpiresExactly : Obligations.CountdownExpiresExactly := by
  intro s d n
  obtain ⟨c, hrun⟩ := execAll_ticks_of_running s d n
  exact ⟨c, (execAll_cons (t := s.withTimer .running d) rfl _).trans hrun⟩

/-- Settles O29: the answer is the predicate of R24. -/
theorem texpdReportsExpiry : Obligations.TexpdReportsExpiry := by
  intro s
  change Host.Outcome.next (s.respond .ok [if hasExpired s then 0x01 else 0x00]) = _
  simp only [hasExpired, beq_iff_eq]
  rfl

/-- Settles O45: SHUTDOWN is the three updates of R240 in their order. -/
theorem shutdownHaltsAndCancels : Obligations.ShutdownHaltsAndCancels := fun _ => rfl

end Sys2Proof.Machine

/-! ### Digits of a bit string (40_checksum.md R100) -/

namespace Sys2Proof.Machine

theorem val_eq_take_drop (b : Bits) (p : Nat) :
    val b = val (b.take p) * 2 ^ (b.length - p) + val (b.drop p) := by
  conv_lhs => rw [← List.take_append_drop p b, val_append, List.length_drop]

theorem val_drop_lt (b : Bits) (p : Nat) : val (b.drop p) < 2 ^ (b.length - p) :=
  (val_lt _).trans_eq (by rw [List.length_drop])

theorem val_drop (b : Bits) (p : Nat) : val (b.drop p) = val b % 2 ^ (b.length - p) := by
  rw [val_eq_take_drop b p, Nat.mul_comm, Nat.mul_add_mod, Nat.mod_eq_of_lt (val_drop_lt b p)]

theorem val_take (b : Bits) (p : Nat) : val (b.take p) = val b / 2 ^ (b.length - p) := by
  rw [val_eq_take_drop b p, Nat.mul_comm, Nat.mul_add_div (Nat.two_pow_pos _), Nat.div_eq_of_lt (val_drop_lt b p),
    Nat.add_zero]

theorem val_zeros_append (n : Nat) (b : Bits) : val (zeros n ++ b) = val b := by
  rw [val_append, val_zeros, Nat.zero_mul, Nat.zero_add]

/-- The padded string has `ceil(L/W)` blocks. -/
theorem padLength_add (L : Nat) {W : Nat} (hW : 0 < W) : padLength L W + L = W * ((L + W - 1) / W) := by
  obtain ⟨q, hq⟩ := dvd_padLength_add L hW
  have hpad : padLength L W < W := Nat.mod_lt _ hW
  have hcount : (L + W - 1) / W = q :=
    Nat.div_eq_of_lt_le (by rw [Nat.mul_comm]; omega) (by rw [Nat.succ_mul, Nat.mul_comm]; omega)
  rw [hcount, hq]

/-- Settles O9: the block at distance `i` from the end is cut where the digit `i` stands. -/
theorem blocksAreDigitsFromTheEnd : Obligations.BlocksAreDigitsFromTheEnd := by
  intro b W hW
  have hpadded : (zeros (padLength b.length W) ++ b).length = W * ((b.length + W - 1) / W) := by
    rw [List.length_append, length_zeros, padLength_add b.length hW]
  have hlen : (blocks b W).length = (b.length + W - 1) / W := by
    rw [blocks, List.length_map, List.length_range, hpadded, Nat.mul_div_cancel_left _ hW]
  refine ⟨hlen, fun i hi => ?_⟩
  rw [hlen] at hi ⊢
  generalize (b.length + W - 1) / W = q at *
  have hpos : q * W - (q - 1 - i) * W = W * i + W := by
    rw [← Nat.sub_mul, show q - (q - 1 - i) = i + 1 by omega, Nat.succ_mul, Nat.mul_comm]
  have hdigit : val (((zeros (padLength b.length W) ++ b).drop ((q - 1 - i) * W)).take W)
      = val b / 2 ^ (W * i) % 2 ^ W := by
    rw [val_take, val_drop, List.length_drop, hpadded, Nat.mul_comm W q, hpos, Nat.add_sub_cancel, val_zeros_append,
      Nat.pow_add, Nat.mod_mul_right_div_self]
  have hcut : (zeros (padLength b.length W) ++ b).length / W = q := by rw [hpadded, Nat.mul_div_cancel_left _ hW]
  rw [← hdigit, blocks, hcut, List.getElem?_map, List.getElem?_range (by omega)]
  rfl

/-! ### What the checksum detects (40_checksum.md R111) -/

/-- Verification, like the sum, depends on nothing but the number the string spells. -/
theorem vfyRaw_iff_val (b : Bits) {k : Nat} (hk : 1 ≤ k) :
    vfyRaw b k = true ↔ 0 < val b ∧ (2 ^ (8 * k) - 1) ∣ val b := by
  have hW : 0 < 8 * k := by omega
  rw [vfyRaw_iff, sum1c_eq_foldSum_val hW, foldSum_eq_allOnes_iff hW]

theorem vfyRaw_congr {b b' : Bits} (h : val b = val b') {k : Nat} (hk : 1 ≤ k) : vfyRaw b k = vfyRaw b' k := by
  rw [Bool.eq_iff_iff, vfyRaw_iff_val b hk, vfyRaw_iff_val b' hk, h]

theorem genRaw_congr {b b' : Bits} (h : val b = val b') {k : Nat} (hk : 1 ≤ k) : genRaw b k = genRaw b' k := by
  have hW : 0 < 8 * k := by omega
  rw [genRaw, genRaw, sum1c_eq_foldSum_val hW, sum1c_eq_foldSum_val hW, h]

theorem flipAt_zero (x : Bool) (b : Bits) : flipAt (x :: b) 0 = (!x) :: b := rfl

theorem flipAt_succ (x : Bool) (b : Bits) (p : Nat) : flipAt (x :: b) (p + 1) = x :: flipAt b p := rfl

/-- Complementing one bit adds or takes away its weight. -/
theorem val_flipAt {b : Bits} {p : Nat} (hp : p < b.length) :
    val (flipAt b p) = val b + 2 ^ (b.length - 1 - p) ∨ val b = val (flipAt b p) + 2 ^ (b.length - 1 - p) := by
  induction b generalizing p with
  | nil => exact absurd hp (Nat.not_lt_zero p)
  | cons x b ih =>
    cases p with
    | zero =>
      have hfirst : b.length + 1 - 1 - 0 = b.length := rfl
      rw [flipAt_zero, val_cons, val_cons]
      cases x with
      | false => left; simp only [Bool.not_false, Bool.toNat_true, Bool.toNat_false, List.length_cons, hfirst]; omega
      | true => right; simp only [Bool.not_true, Bool.toNat_true, Bool.toNat_false, List.length_cons, hfirst]; omega
    | succ p =>
      have hweight : (x :: b).length - 1 - (p + 1) = b.length - 1 - p := by rw [List.length_cons]; omega
      rw [flipAt_succ, val_cons, val_cons, length_flipAt, hweight]
      rcases ih (Nat.lt_of_succ_lt_succ hp) with h | h
      · left; omega
      · right; omega

/-- No weight of a bit is a multiple of an all-ones block, which is odd. -/
theorem not_allOnes_dvd_two_pow {W : Nat} (hW : 1 < W) (j : Nat) : ¬ (2 ^ W - 1) ∣ 2 ^ j := by
  intro hdvd
  have hsplit : 2 ^ W = 2 * 2 ^ (W - 1) := by rw [← Nat.pow_succ', Nat.succ_eq_add_one, Nat.sub_add_cancel hW.le]
  have hbig : 1 < 2 ^ (W - 1) := Nat.one_lt_two_pow (by omega)
  have hodd : Nat.Coprime (2 ^ W - 1) 2 := Nat.coprime_two_right.2 (Nat.odd_iff.2 (by omega))
  have hone : 2 ^ W - 1 = 1 := (hodd.pow_right j).eq_one_of_dvd hdvd
  omega

theorem vfyRaw_flipAt {b : Bits} {k p : Nat} (hk : 1 ≤ k) (hp : p < b.length) (h : vfyRaw b k = true) :
    vfyRaw (flipAt b p) k = false := by
  by_contra hflip
  obtain ⟨-, hdvd⟩ := (vfyRaw_iff_val b hk).1 h
  obtain ⟨-, hdvd'⟩ := (vfyRaw_iff_val (flipAt b p) hk).1 (by simpa using hflip)
  apply not_allOnes_dvd_two_pow (by omega : 1 < 8 * k) (b.length - 1 - p)
  rcases val_flipAt hp with hval | hval
  · rw [hval] at hdvd'
    exact (Nat.dvd_add_right hdvd).1 hdvd'
  · rw [hval] at hdvd
    exact (Nat.dvd_add_right hdvd').1 hdvd

/-- Settles O14: the packet verifies, and a flip moves its number by a weight that no multiple of all ones bridges. -/
theorem singleBitFlipIsDetected : Obligations.SingleBitFlipIsDetected := by
  intro k P pos hk hk' hpos
  exact vfyRaw_flipAt hk (by simpa using hpos) (pktOk_pktCk hk hk' P)

theorem val_bits_leading_zeros (n : Nat) (P : Bytes) (b : Bits) :
    val (bits (List.replicate n 0 ++ P) ++ b) = val (bits P ++ b) := by
  rw [bits_append, bits_replicate_zero, List.append_assoc, val_zeros_append]

/-- Settles O15: the sum is a sum of its blocks in any order, and leading zeros spell nothing. -/
theorem permutationsAndLeadingZerosAreNotDetected : Obligations.PermutationsAndLeadingZerosAreNotDetected := by
  refine ⟨fun b b' W _ hperm => ?_, fun k n P hk _ => ⟨?_, fun c => ?_⟩⟩
  · rw [sum1c, sum1c, blockSum, blockSum, hperm.sum_eq]
  · rw [pktCk, pktCk, genRaw_congr (val_bits_leading_zeros n P _) hk]
  · exact vfyRaw_congr (val_bits_leading_zeros n P _) hk

/-! ### LPAD, FLIP and DIFF (41_bitutil.md R121, R124, R126) -/

theorem length_rightAligned (b : Bits) : (rightAligned b).length = (b.length + 7) / 8 := by
  rw [rightAligned, length_bytesOf, List.length_append, length_zeros]
  omega

/-- Right-aligned in bytes a string spells the number it spells. -/
theorem unbe_rightAligned (b : Bits) : unbe (rightAligned b) = val b := by
  have hlen : (zeros ((8 - b.length % 8) % 8) ++ b).length = 8 * ((b.length + 7) / 8) := by
    rw [List.length_append, length_zeros]
    omega
  rw [unbe, rightAligned, bits_bytesOf hlen, val_zeros_append]

theorem leftpad_of_le {v w : Nat} (h : 2 ^ w ≤ v) : leftpad v w = none := if_pos ((lt_mbl_iff v w).2 h)

theorem leftpad_of_lt {v w : Nat} (h : v < 2 ^ w) : leftpad v w = some (bstr w v) :=
  if_neg (mt (lt_mbl_iff v w).1 (Nat.not_le.2 h))

/-- Settles O18: `leftpad` fails exactly for a value that needs more bits than the width. -/
theorem lpadRespondsThePaddedValue : Obligations.LpadRespondsThePaddedValue := by
  refine fun width value s => ⟨fun hbound hlen => ?_, fun hlen hwide => ?_, fun hlen hfits => ?_⟩
  · refine exec_of_not_operandsOk (i := .lpad width value) rfl (Bool.eq_false_iff.2 fun hok => ?_)
    rcases (operandsOk_lpad_iff _ width value).1 hok with h | h
    · exact hbound h
    · omega
  · simp only [exec, execLpad, (operandsOk_lpad_iff _ width value).2 hlen, ↓reduceIte, leftpad_of_le hwide]
    rfl
  · refine ⟨rightAligned (bstr width.toNat (unbe value)), by rw [length_rightAligned, length_bstr],
      by rw [unbe_rightAligned, val_bstr_of_lt hfits], ?_⟩
    simp only [exec, execLpad, (operandsOk_lpad_iff _ width value).2 hlen, ↓reduceIte, leftpad_of_lt hfits]
    rfl

theorem bits_bytesOf_flipAt (data : Bytes) (p : Nat) : bits (bytesOf (flipAt (bits data) p)) = flipAt (bits data) p :=
  bits_bytesOf (n := data.length) (by rw [length_flipAt, length_bits])

theorem length_bytesOf_flipAt (data : Bytes) (p : Nat) : (bytesOf (flipAt (bits data) p)).length = data.length := by
  rw [length_bytesOf, length_flipAt, length_bits, Nat.mul_div_cancel_left _ (by decide)]

theorem exec_flip_of_within {data : Bytes} {s : State} (hlen : within data.length (maxFrame s.maxPayload) = true)
    (htest : s.cfgTest = true) (hdata : data ≠ []) :
    exec (.flip data) s
      = .next (s.drawn.respond .ok (bytesOf (flipAt (bits data) (s.draws.position (8 * data.length))))) := by
  have hops : operandsOk s.maxPayload (.flip data) = true := hlen
  have hpos : data.length ≠ 0 := mt List.eq_nil_of_length_eq_zero hdata
  simp only [exec, execFlip, hops, htest, hpos, ↓reduceIte, Bool.true_eq_false]

theorem exec_flip_of_illegal {data : Bytes} {s : State}
    (h : within data.length (maxFrame s.maxPayload) = false ∨ s.cfgTest = false ∨ data = []) :
    exec (.flip data) s = .next s.illegal := by
  by_cases hops : operandsOk s.maxPayload (.flip data) = true
  · have hlen : within data.length (maxFrame s.maxPayload) = true := hops
    rcases h with h | h | h
    · exact nomatch h.symm.trans hlen
    · simp only [exec, execFlip, hops, h, ↓reduceIte]
    · simp [exec, execFlip, h]
  · exact exec_of_not_operandsOk (i := .flip data) rfl (by simpa using hops)

/-- Settles O19: the answer is the data with `flip` at the drawn position. -/
theorem flipComplementsExactlyOneBit : Obligations.FlipComplementsExactlyOneBit := by
  refine fun data s => ⟨exec_flip_of_illegal, fun hlen htest hdata => ?_⟩
  obtain ⟨f, hdrawn⟩ := s.drawn_eq
  refine ⟨s.draws, bytesOf (flipAt (bits data) (s.draws.position (8 * data.length))), f, s.draws_of,
    length_bytesOf_flipAt data _, fun p => ?_, ?_⟩
  · rw [bits_bytesOf_flipAt, getElem?_flipAt]
    rfl
  · rw [exec_flip_of_within hlen htest hdata, hdrawn]
    rfl

theorem bstr_xor (n u v : Nat) : bstr n (u ^^^ v) = diffMask (bstr n u) (bstr n v) := by
  simp [bstr, diffMask, List.zipWith_map, List.zipWith_self, Nat.testBit_xor]

/-- The mask of two byte sequences of one length is the exclusive-or of their bytes. -/
theorem diffMask_bits {A B : Bytes} (h : A.length = B.length) :
    diffMask (bits A) (bits B) = bits (List.zipWith (· ^^^ ·) A B) := by
  induction A generalizing B with
  | nil => rfl
  | cons x A ih =>
    cases B with
    | nil => cases h
    | cons y B =>
      have htail : A.length = B.length := by simpa using h
      rw [List.zipWith_cons_cons, bits_cons, bits_cons, bits_cons, ← ih htail, BitVec.toNat_xor, bstr_xor]
      exact List.zipWith_append (by rw [length_bstr, length_bstr])

/-- Settles O20: the mask of the halves is their bytewise exclusive-or. -/
theorem diffRespondsTheMaskOfTheHalves : Obligations.DiffRespondsTheMaskOfTheHalves := by
  refine fun data s => ⟨fun h => ?_, fun n hn hlen => ?_⟩
  · refine exec_of_not_operandsOk (i := .diff data) rfl (Bool.eq_false_iff.2 fun hok => ?_)
    obtain ⟨heven, hlen⟩ := (operandsOk_diff_iff _ data).1 hok
    rcases h with h | h
    · omega
    · exact nomatch h.symm.trans hlen
  · have hops : operandsOk s.maxPayload (.diff data) = true := (operandsOk_diff_iff _ data).2 ⟨by omega, hlen⟩
    have hhalves : halves data = (data.take n, data.drop n) := by rw [halves, hn, Nat.mul_div_cancel_left _ (by decide)]
    have htake : (data.take n).length = n := List.length_take_of_le (by omega)
    have hdrop : (data.drop n).length = n := by rw [List.length_drop]; omega
    refine ⟨List.zipWith (· ^^^ ·) (data.take n) (data.drop n), by simp [htake, hdrop], fun i hi => ?_, ?_⟩
    · have hfirst : i < data.length := by omega
      have hsecond : n + i < data.length := by omega
      simp [List.getElem?_zipWith, List.getElem?_drop, hi, hfirst, hsecond]
    · simp only [exec, execDiff, hops, ↓reduceIte, hhalves, diffMask_bits (htake.trans hdrop.symm), bytesOf_bits]
      rfl

/-! ### Port STATUS (10_state.md R30) -/

/-- The layout of R30: LAST_VALID, ERR.PV, HALT, TS, RS and the two bits of SS from bit 7 down. -/
def packStatus (valid err halt : Bool) (ts : BitVec 2) (rs phase bit : BitVec 1) : BitVec (1 + 1 + 1 + 2 + 1 + 1 + 1) :=
  BitVec.ofBool valid ++ BitVec.ofBool err ++ BitVec.ofBool halt ++ ts ++ rs ++ phase ++ bit

section
variable (valid err halt : Bool) (ts : BitVec 2) (rs phase bit : BitVec 1)

theorem packStatus_bit : (packStatus valid err halt ts rs phase bit).extractLsb' 0 1 = bit :=
  BitVec.extractLsb'_append_eq_right

theorem packStatus_phase : (packStatus valid err halt ts rs phase bit).extractLsb' 1 1 = phase :=
  (BitVec.extractLsb'_append_eq_of_le (by decide)).trans BitVec.extractLsb'_append_eq_right

theorem packStatus_rs : (packStatus valid err halt ts rs phase bit).extractLsb' 2 1 = rs :=
  (BitVec.extractLsb'_append_eq_of_le (by decide)).trans
    ((BitVec.extractLsb'_append_eq_of_le (by decide)).trans BitVec.extractLsb'_append_eq_right)

theorem packStatus_ts : (packStatus valid err halt ts rs phase bit).extractLsb' 3 2 = ts :=
  (BitVec.extractLsb'_append_eq_of_le (by decide)).trans
    ((BitVec.extractLsb'_append_eq_of_le (by decide)).trans
      ((BitVec.extractLsb'_append_eq_of_le (by decide)).trans BitVec.extractLsb'_append_eq_right))

theorem packStatus_flags : (packStatus valid err halt ts rs phase bit).getLsbD 5 = halt
    ∧ (packStatus valid err halt ts rs phase bit).getLsbD 6 = err
    ∧ (packStatus valid err halt ts rs phase bit).getLsbD 7 = valid := by
  simp only [packStatus, BitVec.getLsbD_append]
  simp

end

/-- Settles O8: each field of the packed byte stands at its place in the layout. -/
theorem statusPortPacksTheRegisters : Obligations.StatusPortPacksTheRegisters := by
  intro s
  obtain ⟨hhalt, herr, hvalid⟩ :=
    packStatus_flags s.lastValid s.errPv s.halt (timerBits s.ts) s.rs (phaseBit s.ss.phase) s.ss.bit
  refine ⟨packStatus_bit .., (packStatus_phase ..).trans ?_, packStatus_rs .., (packStatus_ts ..).trans rfl, hhalt, herr,
    hvalid, rfl, rfl, rfl, rfl, rfl, rfl, rfl, rfl⟩
  cases s.ss.phase with
  | awaitingCall => rfl
  | awaitingAck => rfl

end Sys2Proof.Machine

/-! ### The channel (44_channel.md) -/

namespace Sys2Proof.Machine

/-- The counter of free values after a transmission: one use more where the draws were free (log 2). -/
def freshAfter (s : State) : Nat := if s.cfgTest = true ∧ s.rnd = [] then s.fresh + 1 else s.fresh

theorem State.drawn_fresh (s : State) : s.drawn.fresh = if s.rnd = [] then s.fresh + 1 else s.fresh := by
  unfold State.drawn
  split
  next h => simp [h]
  next h => simp [h]

theorem State.chsend_fresh (s : State) (port : TxPort) (F : Bytes) : (s.chsend port F).2.fresh = freshAfter s := by
  unfold State.chsend freshAfter
  cases htest : s.cfgTest with
  | false => simp
  | true =>
    simp only [Bool.true_eq_false, ↓reduceIte, true_and]
    split
    next => exact s.drawn_fresh
    next =>
      split
      next => exact s.drawn_fresh
      next => exact s.drawn_fresh

/-- CHSEND in full. -/
theorem State.chsend_eq (s : State) (port : TxPort) (F : Bytes) :
    s.chsend port F = (channelOutcome s s.draws F,
      { s with out := s.out ++ channelEvents s port s.draws F, rnd := rndAfter s, fresh := freshAfter s }) := by
  obtain ⟨houtcome, f, hstate⟩ := s.chsend_spec port F
  have hf : f = freshAfter s := by rw [← s.chsend_fresh port F, hstate]
  exact Prod.ext houtcome (hf ▸ hstate)

theorem exec_chsend (port : TxPort) (F : Bytes) (s : State) :
    exec (.chsend port F) s = .next { s with
      out := s.out ++ channelEvents s port s.draws F ++ [.outcome (channelOutcome s s.draws F)],
      rnd := rndAfter s, fresh := freshAfter s } := by
  simp only [exec, execChsend, State.chsend_eq]
  rfl

/-- Settles O30: the draws are those that wait, or free values. -/
theorem chsendFollowsTheDraws : Obligations.ChsendFollowsTheDraws :=
  fun port F s => ⟨s.draws, freshAfter s, s.draws_of, exec_chsend port F s⟩

theorem channelOutcome_corrupted_iff (s : State) (d : Draws) (F : Bytes) :
    channelOutcome s d F = .corrupted
      ↔ s.cfgTest = true ∧ ¬ s.cfgLoss < d.u ∧ d.v < s.cfgCorr ∧ 6 < F.length := by
  unfold channelOutcome
  split
  next h => simp [h]
  next h =>
    split
    next hl => simp [hl]
    next hl =>
      split
      next hc => simp [h, hl, hc]
      next hc => simp only [reduceCtorEq, false_iff]; tauto

theorem channelEvents_of_corrupted {s : State} {d : Draws} {F : Bytes} (h : channelOutcome s d F = .corrupted)
    (port : TxPort) :
    channelEvents s port d F = [.emit port (corruptFrame F (d.pos % (8 * (F.length - 6))))] := by
  simp only [channelEvents, h]
  rfl

/-- What corruption keeps of a frame with a header, and what it does to the payload (R182). -/
theorem corruptFrame_spec {F : Bytes} (h : 6 ≤ F.length) (p : Nat) :
    (corruptFrame F p).length = F.length ∧ (corruptFrame F p).take 6 = F.take 6
      ∧ bits ((corruptFrame F p).drop 6) = flipAt (bits (F.drop 6)) p := by
  have hheader : (F.take 6).length = 6 := List.length_take_of_le h
  refine ⟨?_, List.take_left' hheader, ?_⟩
  · rw [corruptFrame, List.length_append, length_bytesOf_flipAt, hheader, List.length_drop]
    omega
  · rw [corruptFrame, List.drop_left' hheader, bits_bytesOf_flipAt]

theorem corruptFrame_enc (n : BitVec 16) (c : BitVec 32) (P : Bytes) (p : Nat) :
    corruptFrame (enc n c P) p = enc n c (bytesOf (flipAt (bits P) p)) := rfl

/-- Settles O31: only the outcome Corrupted changes the frame, and it names a payload bit. -/
theorem injectorDamagesOnePayloadBitAtMost : Obligations.InjectorDamagesOnePayloadBitAtMost := by
  intro port F s d hlen
  cases ho : channelOutcome s d F with
  | delivered => exact .inr ⟨F, by simp only [channelEvents, ho], rfl, rfl, .inl rfl⟩
  | lost => exact .inl (by simp only [channelEvents, ho])
  | corrupted =>
    obtain ⟨-, -, -, hpayload⟩ := (channelOutcome_corrupted_iff s d F).1 ho
    obtain ⟨hlength, hheader, hbits⟩ := corruptFrame_spec hlen (d.pos % (8 * (F.length - 6)))
    exact .inr ⟨_, channelEvents_of_corrupted ho port, hlength, hheader,
      .inr ⟨hpayload, _, Nat.mod_lt _ (by omega), hbits⟩⟩

/-- In a test instance a CHSEND uses the draws that wait. -/
theorem exec_chsend_of_presented {s : State} (htest : s.cfgTest = true) (port : TxPort) (F : Bytes) (d : Draws) :
    exec (.chsend port F) { s with rnd := [d] } = .next { s with
      rnd := [], out := s.out ++ channelEvents s port d F ++ [.outcome (channelOutcome s d F)] } := by
  have hrnd : rndAfter { s with rnd := [d] } = [] := if_pos htest
  have hfresh : freshAfter { s with rnd := [d] } = s.fresh := if_neg (by simp)
  rw [exec_chsend, hrnd, hfresh]
  rfl

/-- Settles O32: the extreme draws lose and deliver, and a small one names any bit. -/
theorem everyChannelOutcomeIsPossible : Obligations.EveryChannelOutcomeIsPossible := by
  intro port F s htest hloss hcorr
  have hlossy : s.cfgLoss < 65535 := by bv_omega
  have hdelivers : ¬ s.cfgLoss < 0 := by bv_omega
  have hclean : ¬ 65535 < s.cfgCorr := by bv_omega
  have hcorrupts : 0 < s.cfgCorr := by bv_omega
  refine ⟨⟨⟨65535, 0, 0⟩, ?_⟩, ⟨⟨0, 65535, 0⟩, ?_⟩, fun p hp => ?_⟩
  · have ho : channelOutcome s ⟨65535, 0, 0⟩ F = .lost := by simp only [channelOutcome, htest, hlossy]; rfl
    rw [exec_chsend_of_presented htest, channelEvents, ho, List.append_nil]
  · have ho : channelOutcome s ⟨0, 65535, 0⟩ F = .delivered := by
      simp only [channelOutcome, htest, hdelivers, hclean, false_and, ↓reduceIte, Bool.true_eq_false]
    rw [exec_chsend_of_presented htest, channelEvents, ho, List.append_assoc]
    rfl
  · have ho : channelOutcome s ⟨0, 0, p⟩ F = .corrupted :=
      (channelOutcome_corrupted_iff _ _ _).2 ⟨htest, hdelivers, hcorrupts, by omega⟩
    obtain ⟨-, hheader, hbits⟩ := corruptFrame_spec (F := F) (by omega) p
    refine ⟨⟨0, 0, p⟩, corruptFrame F p, ?_, hheader, hbits⟩
    rw [exec_chsend_of_presented htest, channelEvents_of_corrupted ho, ho, List.append_assoc, Nat.mod_eq_of_lt hp]
    rfl

theorem flipAt_append_of_lt {a : Bits} {p : Nat} (h : p < a.length) (b : Bits) : flipAt (a ++ b) p = flipAt a p ++ b := by
  refine List.ext_getElem? fun i => ?_
  rw [getElem?_flipAt, List.getElem?_append, List.getElem?_append, length_flipAt, getElem?_flipAt]
  split
  next hi => rw [if_pos (hi ▸ h), if_pos (hi ▸ h)]
  next => rfl

/-- Settles O33: the flipped payload bit is a bit of the verified string. -/
theorem corruptedDeliveryFailsTheChecksum : Obligations.CorruptedDeliveryFailsTheChecksum := by
  intro port s d n P hlegal ho
  obtain ⟨hk, hk', -⟩ := hlegal
  obtain ⟨-, -, -, hpayload⟩ := (channelOutcome_corrupted_iff _ _ _).1 ho
  rw [length_enc] at hpayload
  have hpos : d.pos % (8 * P.length) < 8 * P.length := Nat.mod_lt _ (by omega)
  refine ⟨bytesOf (flipAt (bits P) (d.pos % (8 * P.length))), d.pos % (8 * P.length), ?_, hpos, bits_bytesOf_flipAt P _, ?_⟩
  · rw [channelEvents_of_corrupted ho, corruptFrame_enc, length_enc, Nat.add_sub_cancel]
  · rw [pktOk, bits_bytesOf_flipAt, ← flipAt_append_of_lt (by rwa [length_bits])]
    exact singleBitFlipIsDetected s.k P _ hk hk' (by omega)

end Sys2Proof.Machine

/-! ### The sender, branch by branch (45_sender.md R191 to R196) -/

namespace Sys2Proof.Machine

section Branches

variable {s : State}

theorem exec_send_of_halted {P : Bytes} (hlen : within P.length s.maxPayload = true) (hhalt : s.halt = true) :
    exec (.send P) s = .next (s.raise .halted []) := by
  have hops : operandsOk s.maxPayload (.send P) = true := hlen
  simp only [exec, execSend, hops, hhalt, ↓reduceIte]

theorem exec_send_of_awaitingAck {P : Bytes} (hlen : within P.length s.maxPayload = true) (hhalt : s.halt = false)
    (hphase : s.ss.phase = .awaitingAck) : exec (.send P) s = .next (s.setErrPv.raise .protocolViolation []) := by
  have hops : operandsOk s.maxPayload (.send P) = true := hlen
  simp only [exec, execSend, hops, hhalt, hphase, ↓reduceIte, Bool.false_eq_true]

theorem exec_send_of_awaitingCall {P : Bytes} (hlen : within P.length s.maxPayload = true) (hhalt : s.halt = false)
    (hphase : s.ss.phase = .awaitingCall) : exec (.send P) s = .next (s.sent P) := by
  have hops : operandsOk s.maxPayload (.send P) = true := hlen
  simp only [exec, execSend, hops, hhalt, hphase, ↓reduceIte, Bool.false_eq_true]
  rfl

theorem exec_rxack_of_halted {F : Bytes} (hlen : within F.length (maxFrame s.maxPayload) = true) (hhalt : s.halt = true) :
    exec (.rxack F) s = .next (s.raise .halted []) := by
  have hops : operandsOk s.maxPayload (.rxack F) = true := hlen
  simp only [exec, execRxack, hops, hhalt, ↓reduceIte]

theorem exec_rxack_of_awaitingCall {F : Bytes} (hlen : within F.length (maxFrame s.maxPayload) = true)
    (hhalt : s.halt = false) (hphase : s.ss.phase = .awaitingCall) :
    exec (.rxack F) s = .next (s.respond .ok [0x01]) := by
  have hops : operandsOk s.maxPayload (.rxack F) = true := hlen
  simp only [exec, execRxack, hops, hhalt, hphase, ↓reduceIte, Bool.false_eq_true]

theorem exec_rxack_of_length_lt {F : Bytes} (hlen : within F.length (maxFrame s.maxPayload) = true)
    (hhalt : s.halt = false) (hphase : s.ss.phase = .awaitingAck) (hshort : F.length < 6) :
    exec (.rxack F) s = .next (s.raise .malformedPacket []) := by
  have hops : operandsOk s.maxPayload (.rxack F) = true := hlen
  simp only [exec, execRxack, hops, hhalt, hphase, dec_of_length_lt hshort, ↓reduceIte, Bool.false_eq_true]

variable {n : BitVec 16} {c : BitVec 32} {P : Bytes}

theorem exec_rxack_of_mismatch (hlen : within (enc n c P).length (maxFrame s.maxPayload) = true) (hhalt : s.halt = false)
    (hphase : s.ss.phase = .awaitingAck) (hok : pktOk s.k c P = false) :
    exec (.rxack (enc n c P)) s = .next (s.raise .checksumMismatch []) := by
  have hops : operandsOk s.maxPayload (.rxack (enc n c P)) = true := hlen
  simp only [exec, execRxack, hops, hhalt, hphase, dec_enc, hok, ↓reduceIte, Bool.false_eq_true]

theorem exec_rxack_of_ne (hlen : within (enc n c P).length (maxFrame s.maxPayload) = true) (hhalt : s.halt = false)
    (hphase : s.ss.phase = .awaitingAck) (hok : pktOk s.k c P = true) (hn : n ≠ zext16 s.ss.bit) :
    exec (.rxack (enc n c P)) s = .next (s.respond .ok [0x02]) := by
  have hops : operandsOk s.maxPayload (.rxack (enc n c P)) = true := hlen
  simp only [exec, execRxack, hops, hhalt, hphase, dec_enc, hok, if_pos hn, ↓reduceIte, Bool.false_eq_true,
    Bool.true_eq_false]

theorem exec_rxack_of_eq (hlen : within (enc n c P).length (maxFrame s.maxPayload) = true) (hhalt : s.halt = false)
    (hphase : s.ss.phase = .awaitingAck) (hok : pktOk s.k c P = true) (hn : n = zext16 s.ss.bit) :
    exec (.rxack (enc n c P)) s = .next s.acked := by
  have hops : operandsOk s.maxPayload (.rxack (enc n c P)) = true := hlen
  simp only [exec, execRxack, hops, hhalt, hphase, dec_enc, hok, if_neg (not_not.2 hn), ↓reduceIte, Bool.false_eq_true,
    Bool.true_eq_false]
  rfl

theorem exec_tmo_of_enabled {F : Bytes} (hon : tmoEnabled s = true) (hF : s.readLast = some F) :
    exec .tmo s = .next (s.retransmitted F) := by
  simp only [exec, execTmo, hon, hF, ↓reduceIte]
  rfl

/-! ### The receiver, branch by branch (46_receiver.md R221 to R224) -/

theorem exec_rxpkt_of_halted {F : Bytes} (hlen : within F.length (maxFrame s.maxPayload) = true) (hhalt : s.halt = true) :
    exec (.rxpkt F) s = .next (s.raise .halted []) := by
  have hops : operandsOk s.maxPayload (.rxpkt F) = true := hlen
  simp only [exec, execRxpkt, hops, hhalt, ↓reduceIte]

theorem exec_rxpkt_of_length_lt {F : Bytes} (hlen : within F.length (maxFrame s.maxPayload) = true)
    (hhalt : s.halt = false) (hshort : F.length < 6) : exec (.rxpkt F) s = .next (s.raise .malformedPacket []) := by
  have hops : operandsOk s.maxPayload (.rxpkt F) = true := hlen
  simp only [exec, execRxpkt, hops, hhalt, dec_of_length_lt hshort, ↓reduceIte, Bool.false_eq_true]

theorem exec_rxpkt_of_mismatch (hlen : within (enc n c P).length (maxFrame s.maxPayload) = true) (hhalt : s.halt = false)
    (hok : pktOk s.k c P = false) :
    exec (.rxpkt (enc n c P)) s = .next (s.reacked (zext16 (~~~s.rs)) .checksumMismatch []) := by
  have hops : operandsOk s.maxPayload (.rxpkt (enc n c P)) = true := hlen
  simp only [exec, execRxpkt, hops, hhalt, dec_enc, hok, ↓reduceIte, Bool.false_eq_true]
  rfl

theorem exec_rxpkt_of_ne (hlen : within (enc n c P).length (maxFrame s.maxPayload) = true) (hhalt : s.halt = false)
    (hok : pktOk s.k c P = true) (hn : n ≠ zext16 s.rs) :
    exec (.rxpkt (enc n c P)) s = .next (s.reacked n .ok [0x01]) := by
  have hops : operandsOk s.maxPayload (.rxpkt (enc n c P)) = true := hlen
  simp only [exec, execRxpkt, hops, hhalt, dec_enc, hok, if_pos hn, ↓reduceIte, Bool.false_eq_true, Bool.true_eq_false]
  rfl

theorem exec_rxpkt_of_eq (hlen : within (enc n c P).length (maxFrame s.maxPayload) = true) (hhalt : s.halt = false)
    (hok : pktOk s.k c P = true) (hn : n = zext16 s.rs) :
    exec (.rxpkt (enc n c P)) s = .next (s.accepted P) := by
  have hops : operandsOk s.maxPayload (.rxpkt (enc n c P)) = true := hlen
  simp only [exec, execRxpkt, hops, hhalt, dec_enc, hok, if_neg (not_not.2 hn), ↓reduceIte, Bool.false_eq_true,
    Bool.true_eq_false]
  rfl

end Branches

/-! The states after a transmission, field by field. -/

theorem State.sent_eq (s : State) (P : Bytes) : s.sent P = { s with
    ss := ⟨.awaitingAck, s.ss.bit⟩, ts := .running, cnt := s.cfgTimeout,
    last := (s.storeLast (s.dataFrame P)).last, lastLen := P.length + 6, lastValid := true,
    out := s.out ++ channelEvents s .txs (s.storeLast (s.dataFrame P)).draws (s.dataFrame P)
      ++ [.respond .ok [outcomeByte (channelOutcome s (s.storeLast (s.dataFrame P)).draws (s.dataFrame P))]],
    rnd := rndAfter s, fresh := freshAfter (s.storeLast (s.dataFrame P)) } := by
  rw [State.sent, State.chsend_eq, ← s.length_dataFrame P]
  rfl

theorem State.retransmitted_eq (s : State) (F : Bytes) : s.retransmitted F = { s with
    ts := .running, cnt := s.cfgTimeout,
    out := s.out ++ channelEvents s .txs s.draws F ++ [.outcome (channelOutcome s s.draws F)],
    rnd := rndAfter s, fresh := freshAfter s } := by
  rw [State.retransmitted, State.chsend_eq]
  rfl

theorem State.reacked_eq (s : State) (n : BitVec 16) (st : Status) (head : Bytes) : s.reacked n st head = { s with
    out := s.out ++ channelEvents s .txr s.draws (s.ack n)
      ++ [.respond st (head ++ [outcomeByte (channelOutcome s s.draws (s.ack n))])],
    rnd := rndAfter s, fresh := freshAfter s } := by
  rw [State.reacked, State.chsend_eq]
  rfl

theorem State.accepted_eq (s : State) (P : Bytes) : s.accepted P = { s with
    rs := ~~~s.rs,
    out := s.out ++ channelEvents s .txr s.draws (s.ack (zext16 s.rs))
      ++ [.deliver P, .respond .ok [0x00, outcomeByte (channelOutcome s s.draws (s.ack (zext16 s.rs)))]],
    rnd := rndAfter s, fresh := freshAfter s } := by
  have hout := s.accepted_out P
  rw [← List.append_assoc] at hout
  rw [← hout, State.accepted, State.chsend_eq]
  rfl

/-- Settles O35: the accepting branch of SEND, field by field. -/
theorem sendTransmitsKeepsAndArms : Obligations.SendTransmitsKeepsAndArms := by
  intro P s hlen hhalt hphase
  refine ⟨(s.storeLast (s.dataFrame P)).draws, (s.storeLast (s.dataFrame P)).last, freshAfter (s.storeLast (s.dataFrame P)),
    (s.storeLast (s.dataFrame P)).draws_of, s.storeLast_read (s.dataFrame P), ?_⟩
  rw [exec_send_of_awaitingCall hlen hhalt hphase, State.sent_eq]
  rfl

/-- Settles O36: the three refusing branches of SEND. -/
theorem sendIsRefusedWithItsReason : Obligations.SendIsRefusedWithItsReason :=
  fun P _ => ⟨exec_of_not_operandsOk (i := .send P) rfl, exec_send_of_halted, exec_send_of_awaitingAck⟩

/-- Settles O37: the accepting branch of RXACK. -/
theorem rxackAcceptsTheMatchingAck : Obligations.RxackAcceptsTheMatchingAck := by
  intro c P s hlen hhalt hphase hok
  exact exec_rxack_of_eq (by rwa [length_enc]) hhalt hphase hok rfl

/-- Settles O38: the other branches of RXACK. -/
theorem rxackIgnoresEverythingElse : Obligations.RxackIgnoresEverythingElse := by
  refine fun F s => ⟨exec_of_not_operandsOk (i := .rxack F) rfl, exec_rxack_of_halted, exec_rxack_of_awaitingCall,
    fun hlen hhalt hphase => ⟨exec_rxack_of_length_lt hlen hhalt hphase, ?_⟩⟩
  rintro n c P rfl
  exact ⟨exec_rxack_of_mismatch hlen hhalt hphase, exec_rxack_of_ne hlen hhalt hphase⟩

/-- Settles O39: enabled, TMO reads back the frame the buffer holds. -/
theorem tmoRetransmitsTheLastFrame : Obligations.TmoRetransmitsTheLastFrame := by
  refine ⟨fun F s hhalt hphase hts hholds hlen => ⟨s.draws, freshAfter s, s.draws_of, ?_⟩, fun s hoff => ?_⟩
  · rw [exec_tmo_of_enabled ((tmoEnabled_iff s).2 ⟨hhalt, hphase, hts⟩) (State.readLast_of_holds hholds hlen),
      State.retransmitted_eq]
  · exact exec_tmo_of_not_enabled (Bool.eq_false_iff.2 (mt (tmoEnabled_iff s).1 hoff))

/-- Settles O42: the branches of RXPKT, field by field. -/
theorem rxpktFollowsTheTransitionTable : Obligations.RxpktFollowsTheTransitionTable := by
  refine fun F s => ⟨exec_of_not_operandsOk (i := .rxpkt F) rfl, exec_rxpkt_of_halted, exec_rxpkt_of_length_lt,
    fun hlen hhalt => ?_⟩
  rintro n c P rfl
  refine ⟨s.draws, freshAfter s, s.draws_of, fun hok => ?_, fun hok hn => ?_, fun hok hn => ?_⟩
  · rw [exec_rxpkt_of_mismatch hlen hhalt hok, State.reacked_eq]
    rfl
  · rw [exec_rxpkt_of_ne hlen hhalt hok hn, State.reacked_eq]
    rfl
  · rw [exec_rxpkt_of_eq hlen hhalt hok hn, State.accepted_eq, hn]
    rfl

/-! ### Repeated packets (46_receiver.md R227) -/

theorem zext16_ne_complement (b : BitVec 1) : zext16 b ≠ zext16 (~~~b) := by
  revert b
  decide

theorem State.k_congr {s t : State} (h : t.params = s.params) : t.k = s.k := congrArg (fun p => p.k.toNat) h

theorem State.maxPayload_congr {s t : State} (h : t.params = s.params) : t.maxPayload = s.maxPayload :=
  congrArg Params.maxPayload h

theorem State.cfgTest_congr {s t : State} (h : t.params = s.params) : t.cfgTest = s.cfgTest := congrArg Params.testEn h

theorem State.ackPayload_congr {s t : State} (h : t.params = s.params) : t.ackPayload = s.ackPayload :=
  congrArg Params.ackPayload h

/-- The acknowledgement depends on the parameters only. -/
theorem State.ack_congr {s t : State} (h : t.params = s.params) (n : BitVec 16) : t.ack n = s.ack n := by
  rw [State.ack, State.ack, State.k_congr h, State.ackPayload_congr h]

@[simp] theorem State.reacked_params (s : State) (n : BitVec 16) (st : Status) (head : Bytes) :
    (s.reacked n st head).params = s.params := by simp [State.reacked]

@[simp] theorem State.accepted_params (s : State) (P : Bytes) : (s.accepted P).params = s.params := by
  simp [State.accepted]

/-- `s` is ready for a packet with checksum `c` and payload `P`: it fits, the session runs, and it verifies. -/
structure Takes (s : State) (c : BitVec 32) (P : Bytes) : Prop where
  fits : within (P.length + 6) (maxFrame s.maxPayload) = true
  running : s.halt = false
  verifies : pktOk s.k c P = true

theorem Takes.congr {s t : State} {c : BitVec 32} {P : Bytes} (h : Takes s c P) (hparams : t.params = s.params)
    (hhalt : t.halt = s.halt) : Takes t c P where
  fits := by rw [State.maxPayload_congr hparams]; exact h.fits
  running := hhalt.trans h.running
  verifies := by rw [State.k_congr hparams]; exact h.verifies

/-- A packet with the number that is not expected is acknowledged each time it comes. -/
theorem execAll_duplicates {s : State} {n : BitVec 16} {c : BitVec 32} {P : Bytes} (h : Takes s c P) (hn : n ≠ zext16 s.rs)
    (m : Nat) :
    ∃ t, execAll (List.replicate m (.rxpkt (enc n c P))) s = .next t ∧ t.rs = s.rs
      ∧ deliveries t.out = deliveries s.out
      ∧ (s.cfgTest = false → emittedOn .txr t.out = emittedOn .txr s.out ++ List.replicate m (s.ack n)) := by
  induction m generalizing s with
  | zero => exact ⟨s, rfl, rfl, rfl, fun _ => (List.append_nil _).symm⟩
  | succ m ih =>
    have hstep : exec (.rxpkt (enc n c P)) s = .next (s.reacked n .ok [0x01]) :=
      exec_rxpkt_of_ne (by rw [length_enc]; exact h.fits) h.running h.verifies hn
    have hrs : (s.reacked n .ok [0x01]).rs = s.rs := by simp [State.reacked]
    obtain ⟨t, hrun, hrs', hdel, hemit⟩ := ih (h.congr (s.reacked_params n .ok [0x01]) (by simp [State.reacked]))
      (by rwa [hrs])
    refine ⟨t, by rw [List.replicate_succ, execAll_cons hstep, hrun], hrs'.trans hrs, ?_, fun htest => ?_⟩
    · rw [hdel, State.reacked_out]
      simp
    · rw [hemit (by rwa [State.cfgTest_congr (s.reacked_params n .ok [0x01])]),
        State.ack_congr (s.reacked_params n .ok [0x01]), State.reacked_out, channelEvents_of_absent htest,
        List.replicate_succ]
      simp

/-- Settles O43: the first packet is accepted and toggles `RS`, so every repetition has the other number. -/
theorem duplicatesAreAcknowledgedNotDelivered : Obligations.DuplicatesAreAcknowledgedNotDelivered := by
  intro c P s n hlen hhalt hok
  have hfirst : exec (.rxpkt (enc (zext16 s.rs) c P)) s = .next (s.accepted P) :=
    exec_rxpkt_of_eq (by rwa [length_enc]) hhalt hok rfl
  have htakes : Takes (s.accepted P) c P :=
    Takes.congr ⟨hlen, hhalt, hok⟩ (s.accepted_params P) (by simp [State.accepted])
  have hrs : (s.accepted P).rs = ~~~s.rs := rfl
  obtain ⟨t, hrun, hrs', hdel, hemit⟩ := execAll_duplicates htakes (hrs ▸ zext16_ne_complement s.rs) n
  refine ⟨t, by rw [List.replicate_succ, execAll_cons hfirst, hrun], hrs', ?_, fun htest => ?_⟩
  · rw [hdel, State.accepted_out]
    simp
  · rw [hemit (by rwa [State.cfgTest_congr (s.accepted_params P)]), State.ack_congr (s.accepted_params P),
      State.accepted_out, channelEvents_of_absent htest, List.replicate_succ]
    simp [State.ack]

end Sys2Proof.Machine

/-! ### Two endpoints without an injector (46_receiver.md R228; 70_reset_and_hazards.md R306, R309) -/

namespace Sys2Proof.Machine

theorem execAll_singleton {i : Instr} {s t : State} (h : exec i s = .next t) : execAll [i] s = .next t :=
  execAll_cons h []

@[simp] theorem State.retransmitted_params (s : State) (F : Bytes) : (s.retransmitted F).params = s.params := by
  simp [State.retransmitted]

/-- Settles O53: an accepted ACK disables TMO, and a retransmission changes nothing an ACK is checked against. -/
theorem expiryAgainstAckRace : Obligations.ExpiryAgainstAckRace := by
  intro c P G s hlen hG hhalt hphase hts hok hholds htest
  have hlen : within (enc (zext16 s.ss.bit) c P).length (maxFrame s.maxPayload) = true := by rwa [length_enc]
  have hack : exec (.rxack (enc (zext16 s.ss.bit) c P)) s = .next s.acked := exec_rxack_of_eq hlen hhalt hphase hok rfl
  have htmo : exec .tmo s = .next (s.retransmitted G) :=
    exec_tmo_of_enabled ((tmoEnabled_iff s).2 ⟨hhalt, hphase, hts⟩) (State.readLast_of_holds hholds hG)
  have hdisabled : exec .tmo s.acked = .next s.acked :=
    exec_tmo_of_not_enabled (Bool.eq_false_iff.2 fun hon => nomatch ((tmoEnabled_iff s.acked).1 hon).2.1)
  have hss : (s.retransmitted G).ss = s.ss := by simp [State.retransmitted]
  have hlate : exec (.rxack (enc (zext16 s.ss.bit) c P)) (s.retransmitted G) = .next (s.retransmitted G).acked :=
    exec_rxack_of_eq (by rwa [State.maxPayload_congr (s.retransmitted_params G)]) (by simpa [State.retransmitted])
      (by rwa [hss]) (by rwa [State.k_congr (s.retransmitted_params G)]) (by rw [hss])
  refine ⟨s.acked, (s.retransmitted G).acked, by rw [execAll_cons hack, execAll_singleton hdisabled],
    by rw [execAll_cons htmo, execAll_singleton hlate], rfl, ?_, rfl, by simp [State.acked, State.retransmitted],
    ?_, rfl, rfl, by simp [State.acked_out], ?_, by simp [State.acked_out], ?_⟩
  · rw [State.acked, State.respond_ss, State.setSs_ss, hss]
    rfl
  · exact congrArg cancelledTimer hts
  · simp [State.acked_out, State.retransmitted_out, channelEvents_of_absent htest]
  · simp [State.acked_out, State.retransmitted_out]

/-- What a SEND newly emits without an injector: its frame. -/
theorem execEmitting_send {s : State} {P : Bytes} (hlen : within P.length s.maxPayload = true) (htest : s.cfgTest = false)
    (hhalt : s.halt = false) (hphase : s.ss.phase = .awaitingCall) :
    execEmitting .txs (.send P) s = some ([s.dataFrame P], s.sent P) := by
  rw [execEmitting, exec_send_of_awaitingCall hlen hhalt hphase]
  simp [State.sent_out, channelEvents_of_absent htest]

/-- After a SEND any frame with its number that verifies is accepted as the acknowledgement. -/
theorem exec_rxack_sent {s : State} {P : Bytes} {c : BitVec 32} {Q : Bytes}
    (hlen : within (Q.length + 6) (maxFrame s.maxPayload) = true) (hhalt : s.halt = false) (hok : pktOk s.k c Q = true) :
    exec (.rxack (enc (zext16 s.ss.bit) c Q)) (s.sent P) = .next (s.sent P).acked :=
  exec_rxack_of_eq (by rwa [length_enc, State.maxPayload_congr (s.sent_params P)]) (by simpa [State.sent]) rfl
    (by rwa [State.k_congr (s.sent_params P)]) rfl

theorem execFrames_singleton {op : Bytes → Instr} {F : Bytes} {s t : State} (h : exec (op F) s = .next t) :
    execFrames op [F] s = some t := by
  rw [execFrames, h]
  rfl

/-- Settles O60: the transmitted frame has the number the ACK must have, and it verifies. -/
theorem ownTransmissionIsAcceptedAsAck : Obligations.OwnTransmissionIsAcceptedAsAck := by
  intro P s hlegal hlen htest hhalt hphase
  obtain ⟨hk, hk', -⟩ := hlegal
  exact ⟨s.dataFrame P, s.sent P, execEmitting_send hlen htest hhalt hphase, (s.sent P).acked,
    exec_rxack_sent (within_maxFrame hlen le_rfl) hhalt (pktOk_pktCk hk hk' P), rfl⟩

/-- The sender `a` and the receiver `b` of one legal instance without an injector, ready for a SEND. -/
structure ReadyPair (a b : State) : Prop where
  legal : LegalConfig a
  same : SameConfig a b
  absent : a.cfgTest = false
  sender_runs : a.halt = false
  receiver_runs : b.halt = false
  calls : a.ss.phase = .awaitingCall

namespace ReadyPair

variable {a b : State}

/-- A round trip leaves the pair ready for the next one. -/
theorem next (h : ReadyPair a b) {b' : State} (P : Bytes) (hparams : b'.params = b.params) (hhalt : b'.halt = b.halt) :
    ReadyPair (a.sent P).acked b' := by
  have hsent : (a.sent P).acked.params = a.params := a.sent_params P
  obtain ⟨hk, hk', hackfits⟩ := h.legal
  refine ⟨⟨?_, ?_, ?_⟩, (hsent.trans h.same).trans hparams.symm, (State.cfgTest_congr hsent).trans h.absent, ?_,
    hhalt.trans h.receiver_runs, rfl⟩
  · rwa [State.k_congr hsent]
  · rwa [State.k_congr hsent]
  · rwa [State.ackPayload_congr hsent, State.maxPayload_congr hsent]
  · simpa [State.acked, State.sent] using h.sender_runs

/-- The acknowledgement of `b` is one that `a` accepts. -/
theorem exec_rxack_ack (h : ReadyPair a b) (P : Bytes) :
    exec (.rxack (b.ack (zext16 a.ss.bit))) (a.sent P) = .next (a.sent P).acked := by
  obtain ⟨hk, hk', hackfits⟩ := h.legal
  rw [← State.ack_congr h.same]
  exact exec_rxack_sent (within_maxFrame hackfits le_rfl) h.sender_runs (pktOk_pktCk hk hk' _)

/-- A round trip completes if the receiver answers the packet with the acknowledgement of its number. -/
theorem roundTrip_eq (h : ReadyPair a b) {P : Bytes} (hlen : within P.length a.maxPayload = true) {b' : State}
    (hrecv : exec (.rxpkt (a.dataFrame P)) b = .next b')
    (hack : emittedOn .txr (b'.out.drop b.out.length) = [b.ack (zext16 a.ss.bit)]) :
    roundTrip P a b = some ((a.sent P).acked, b') := by
  simp only [roundTrip, execEmitting_send hlen h.absent h.sender_runs h.calls, execFrames_singleton hrecv, hack,
    execFrames_singleton (h.exec_rxack_ack P)]

/-- The packet of `a` fits `b` and verifies there. -/
theorem takes (h : ReadyPair a b) {P : Bytes} (hlen : within P.length a.maxPayload = true) : Takes b (pktCk a.k P) P where
  fits := by rw [← State.maxPayload_congr h.same]; exact within_maxFrame hlen le_rfl
  running := h.receiver_runs
  verifies := by
    obtain ⟨hk, hk', -⟩ := h.legal
    rw [← State.k_congr h.same]
    exact pktOk_pktCk hk hk' P

theorem receiver_absent (h : ReadyPair a b) : b.cfgTest = false := (State.cfgTest_congr h.same).symm.trans h.absent

/-- In lockstep the receiver accepts. -/
theorem roundTrip_lockstep (h : ReadyPair a b) {P : Bytes} (hlen : within P.length a.maxPayload = true)
    (hbit : a.ss.bit = b.rs) : roundTrip P a b = some ((a.sent P).acked, b.accepted P) := by
  have htakes := h.takes hlen
  refine h.roundTrip_eq hlen
    (exec_rxpkt_of_eq (by rw [length_enc]; exact htakes.fits) htakes.running htakes.verifies (by rw [hbit])) ?_
  simp [State.accepted_out, channelEvents_of_absent h.receiver_absent, hbit]

/-- Out of lockstep the receiver takes the packet for a repetition. -/
theorem roundTrip_outOfLockstep (h : ReadyPair a b) {P : Bytes} (hlen : within P.length a.maxPayload = true)
    (hbit : b.rs = ~~~a.ss.bit) :
    roundTrip P a b = some ((a.sent P).acked, b.reacked (zext16 a.ss.bit) .ok [0x01]) := by
  have htakes := h.takes hlen
  refine h.roundTrip_eq hlen (exec_rxpkt_of_ne (by rw [length_enc]; exact htakes.fits) htakes.running htakes.verifies
    (hbit ▸ zext16_ne_complement a.ss.bit)) ?_
  simp [State.reacked_out, channelEvents_of_absent h.receiver_absent]

end ReadyPair

theorem complement_add_ofNat (b : BitVec 1) (n : Nat) : ~~~b + BitVec.ofNat 1 n = b + BitVec.ofNat 1 (n + 1) := by
  have hcomplement : ~~~b = b + 1 := by revert b; decide
  rw [hcomplement, BitVec.add_assoc, BitVec.ofNat_add, BitVec.add_comm 1]
  rfl

/-- Settles O58: each round trip delivers its payload and toggles both bits. -/
theorem lossFreeDeliveryIsInOrderExactlyOnce : Obligations.LossFreeDeliveryIsInOrderExactlyOnce := by
  intro Ps a b hlegal hsame htest hhalta hhaltb hphase hbit hfits
  have h : ReadyPair a b := ⟨hlegal, hsame, htest, hhalta, hhaltb, hphase⟩
  clear hlegal hsame htest hhalta hhaltb hphase
  induction Ps generalizing a b with
  | nil => exact ⟨a, b, rfl, (List.append_nil _).symm, h.calls, hbit, (BitVec.add_zero _).symm⟩
  | cons P Ps ih =>
    have htrip := h.roundTrip_lockstep (hfits P List.mem_cons_self) hbit
    have hnext := h.next P (b.accepted_params P) (by simp [State.accepted])
    have hfits' : ∀ Q ∈ Ps, within Q.length (a.sent P).acked.maxPayload = true := fun Q hQ => by
      rw [State.maxPayload_congr (t := (a.sent P).acked) (a.sent_params P)]
      exact hfits Q (List.mem_cons_of_mem P hQ)
    obtain ⟨a', b', hrun, hdel, hcalls, hbits, hcount⟩ := ih (a.sent P).acked (b.accepted P)
      (congrArg (~~~·) hbit) hfits' hnext
    refine ⟨a', b', by simp only [roundTrips, htrip, hrun], ?_, hcalls, hbits, ?_⟩
    · rw [hdel, State.accepted_out]
      simp
    · exact hcount.trans (complement_add_ofNat a.ss.bit Ps.length)

/-- Settles O59: the packet is taken for a repetition, and its acknowledgement is accepted. -/
theorem messageIsLostOutOfLockstep : Obligations.MessageIsLostOutOfLockstep := by
  intro P a b hlegal hsame htest hhalta hhaltb hphase hbit hlen
  have h : ReadyPair a b := ⟨hlegal, hsame, htest, hhalta, hhaltb, hphase⟩
  refine ⟨_, _, h.roundTrip_outOfLockstep hlen hbit, by simp [State.reacked_out], rfl,
    by simp [State.acked, State.reacked, hbit], by simp [State.acked, State.sent], by simp [State.reacked], ?_,
    by simp [State.reacked_out]⟩
  simp [State.acked_out, State.sent_out]

end Sys2Proof.Machine

/-! ### What an operation does not read (10_state.md R20; 44_channel.md R184; 60_exceptions.md R262) -/

namespace Sys2Proof.Machine

/-- `r` with its next state, if there is one, changed by `f`. -/
def mapNext (f : State → State) (r : Result) : Result :=
  match r with
  | .next t => .next (f t)
  | .fault e => .fault e
  | .refused e => .refused e

/-- Where an operation branches on what `f` leaves alone, each branch can be looked at by itself. -/
theorem ite_eq_mapNext {f : State → State} {c : Prop} [Decidable c] {r₁ r₂ q₁ q₂ : Result} (h₁ : q₁ = mapNext f r₁)
    (h₂ : q₂ = mapNext f r₂) : (if c then q₁ else q₂) = mapNext f (if c then r₁ else r₂) := by
  split
  next => exact h₁
  next => exact h₂

/-! The sender's operations do not read `RS`. -/

theorem sent_setRs (P : Bytes) (s : State) (r : BitVec 1) : (s.setRs r).sent P = (s.sent P).setRs r := by
  rw [State.sent_eq, State.sent_eq]
  rfl

theorem retransmitted_setRs (F : Bytes) (s : State) (r : BitVec 1) :
    (s.setRs r).retransmitted F = (s.retransmitted F).setRs r := by
  rw [State.retransmitted_eq, State.retransmitted_eq]
  rfl

theorem execSend_setRs (P : Bytes) (s : State) (r : BitVec 1) :
    execSend P (s.setRs r) = mapNext (·.setRs r) (execSend P s) := by
  refine ite_eq_mapNext (ite_eq_mapNext rfl ?_) rfl
  simp only [State.setRs_ss]
  cases s.ss.phase with
  | awaitingCall => exact congrArg Host.Outcome.next (sent_setRs P s r)
  | awaitingAck => rfl

theorem execRxack_setRs (F : Bytes) (s : State) (r : BitVec 1) :
    execRxack F (s.setRs r) = mapNext (·.setRs r) (execRxack F s) := by
  refine ite_eq_mapNext (ite_eq_mapNext rfl ?_) rfl
  simp only [State.setRs_ss]
  cases s.ss.phase with
  | awaitingCall => rfl
  | awaitingAck =>
    cases dec F with
    | none => rfl
    | some fields => exact ite_eq_mapNext rfl (ite_eq_mapNext rfl rfl)

theorem execTick_setRs (s : State) (r : BitVec 1) : execTick (s.setRs r) = mapNext (·.setRs r) (execTick s) := by
  by_cases hts : s.ts = .running
  · have hrun : s = s.withTimer .running s.cnt := hts ▸ s.withTimer_self.symm
    change exec .tick (s.setRs r) = mapNext (·.setRs r) (exec .tick s)
    rw [hrun, exec_tick_of_running]
    refine (exec_tick_of_running (s.setRs r) s.cnt).trans ?_
    split
    next => rfl
    next => rfl
  · change exec .tick (s.setRs r) = mapNext (·.setRs r) (exec .tick s)
    rw [exec_tick_of_ne_running hts]
    exact exec_tick_of_ne_running hts

theorem execTmo_setRs (s : State) (r : BitVec 1) : execTmo (s.setRs r) = mapNext (·.setRs r) (execTmo s) := by
  refine ite_eq_mapNext ?_ rfl
  have hread : (s.setRs r).readLast = s.readLast := rfl
  simp only [hread]
  cases s.readLast with
  | none => rfl
  | some F => exact congrArg Host.Outcome.next (retransmitted_setRs F s r)

/-- The operations of the sender half (10_state.md R20). -/
def IsSenderOp (i : Instr) : Prop :=
  (∃ P, i = .send P) ∨ (∃ F, i = .rxack F) ∨ i = .tmo ∨ i = .tick ∨ (∃ d, i = .tstart d) ∨ i = .tcancel

theorem exec_setRs {i : Instr} (hi : IsSenderOp i) (s : State) (r : BitVec 1) :
    exec i (s.setRs r) = mapNext (·.setRs r) (exec i s) := by
  rcases hi with ⟨P, rfl⟩ | ⟨F, rfl⟩ | rfl | rfl | ⟨d, rfl⟩ | rfl
  · exact execSend_setRs P s r
  · exact execRxack_setRs F s r
  · exact execTmo_setRs s r
  · exact execTick_setRs s r
  · rfl
  · rfl

/-- A sender operation keeps `RS`: it leaves what it was given. -/
theorem rs_of_senderOp {i : Instr} (hi : IsSenderOp i) {s t : State} (h : exec i s = .next t) : t.rs = s.rs := by
  have hmap := exec_setRs hi s s.rs
  rw [h] at hmap
  have hself : Host.Outcome.next t = mapNext (·.setRs s.rs) (.next t) := h.symm.trans hmap
  injection hself with hself
  rw [hself]
  rfl

/-! RXPKT does not read the sender half. -/

/-- `s` with another sender half. -/
def State.withSenderHalf (s : State) (ss : SenderState) (ts : TimerState) (cnt : BitVec 32) (last : Memory) (lastLen : Nat)
    (lastValid : Bool) : State :=
  { s with ss := ss, ts := ts, cnt := cnt, last := last, lastLen := lastLen, lastValid := lastValid }

section OtherSenderHalf

variable (s : State) (ss : SenderState) (ts : TimerState) (cnt : BitVec 32) (last : Memory) (lastLen : Nat) (lastValid : Bool)

theorem reacked_withSenderHalf (n : BitVec 16) (st : Status) (head : Bytes) :
    (s.withSenderHalf ss ts cnt last lastLen lastValid).reacked n st head
      = (s.reacked n st head).withSenderHalf ss ts cnt last lastLen lastValid := by
  rw [State.reacked_eq, State.reacked_eq]
  rfl

theorem accepted_withSenderHalf (P : Bytes) :
    (s.withSenderHalf ss ts cnt last lastLen lastValid).accepted P
      = (s.accepted P).withSenderHalf ss ts cnt last lastLen lastValid := by
  rw [State.accepted_eq, State.accepted_eq]
  rfl

theorem execRxpkt_withSenderHalf (F : Bytes) :
    execRxpkt F (s.withSenderHalf ss ts cnt last lastLen lastValid)
      = mapNext (·.withSenderHalf ss ts cnt last lastLen lastValid) (execRxpkt F s) := by
  have hreack := reacked_withSenderHalf s ss ts cnt last lastLen lastValid
  refine ite_eq_mapNext (ite_eq_mapNext rfl ?_) rfl
  cases dec F with
  | none => rfl
  | some fields =>
    obtain ⟨n, c, P⟩ := fields
    exact ite_eq_mapNext (congrArg Host.Outcome.next (hreack (zext16 (~~~s.rs)) .checksumMismatch []))
      (ite_eq_mapNext (congrArg Host.Outcome.next (hreack n .ok [0x01]))
        (congrArg Host.Outcome.next (accepted_withSenderHalf s ss ts cnt last lastLen lastValid P)))

end OtherSenderHalf

/-- RXPKT writes of the protocol registers only `RS`. -/
theorem exec_rxpkt_frame {F : Bytes} {s t : State} (h : exec (.rxpkt F) s = .next t) :
    senderHalf t = senderHalf s ∧ t.errPv = s.errPv ∧ t.halt = s.halt := by
  have heffect : Effect s (.rxpkt F) (.next t) := h ▸ exec_effect (.inl rfl) s
  cases heffect with
  | answers => exact ⟨rfl, rfl, rfl⟩
  | rejects => exact ⟨by simp, by simp [State.reacked], by simp [State.reacked]⟩
  | repeats => exact ⟨by simp, by simp [State.reacked], by simp [State.reacked]⟩
  | accepts => exact ⟨by simp, by simp [State.accepted], by simp [State.accepted]⟩

/-- Settles O51: changing what the other half holds commutes with the operation. -/
theorem halvesShareNoRegister : Obligations.HalvesShareNoRegister := by
  refine ⟨fun i s t r hi h => ⟨rs_of_senderOp hi h, (exec_setRs hi s r).trans (by rw [h]; rfl)⟩,
    fun F s t ss1 ts1 cnt1 m1 len1 v1 h => ⟨(exec_rxpkt_frame h).1, ?_⟩⟩
  refine (execRxpkt_withSenderHalf s ss1 ts1 cnt1 m1 len1 v1 F).trans ?_
  rw [show execRxpkt F s = .next t from h]
  rfl

end Sys2Proof.Machine

/-! ### Two runs of one operation (44_channel.md R184; 60_exceptions.md R262) -/

namespace Sys2Proof.Machine

theorem next_unique {i : Instr} {s t u : State} (h : exec i s = .next t) (h' : exec i s = .next u) : t = u :=
  Host.Outcome.next.inj (h.symm.trans h')

/-- `s` with everything that the sender half neither holds nor reads from another register: `RS`, the history, the
stimuli, the draws and the counter of free values. -/
def State.withRest (s : State) (rs : BitVec 1) (out : List Output) (stimuli : List Stimulus) (rnd : List Draws)
    (fresh : Nat) : State :=
  { s with rs := rs, out := out, stimuli := stimuli, rnd := rnd, fresh := fresh }

/-- The two states agree on the sender half, the flags and the parameters. -/
structure SenderAgree (s s' : State) : Prop where
  half : senderHalf s' = senderHalf s
  errPv : s'.errPv = s.errPv
  halt : s'.halt = s.halt
  params : s'.params = s.params

namespace SenderAgree

variable {s s' t t' : State}

theorem trans (h : SenderAgree s s') (h' : SenderAgree s' t) : SenderAgree s t :=
  ⟨h'.half.trans h.half, h'.errPv.trans h.errPv, h'.halt.trans h.halt, h'.params.trans h.params⟩

theorem symm (h : SenderAgree s s') : SenderAgree s' s := ⟨h.half.symm, h.errPv.symm, h.halt.symm, h.params.symm⟩

theorem exists_withRest (h : SenderAgree s s') : s' = s.withRest s'.rs s'.out s'.stimuli s'.rnd s'.fresh := by
  obtain ⟨hhalf, herr, hhalt, hparams⟩ := h
  simp only [senderHalf, Prod.mk.injEq] at hhalf
  simp only [State.params, Params.mk.injEq] at hparams
  obtain ⟨hss, hts, hcnt, hlast, hlen, hvalid⟩ := hhalf
  obtain ⟨hk, htimeout, hmax, hack, htest, hloss, hcorr⟩ := hparams
  cases s
  cases s'
  simp_all [State.withRest]

end SenderAgree

/-- An operation that is neither of the sender half nor SHUTDOWN leaves what the sender half holds. -/
theorem Effect.senderAgree {s t : State} {i : Instr} (hi : ¬ IsSenderOp i) (hi' : i ≠ .shutdown)
    (e : Effect s i (.next t)) : SenderAgree s t := by
  cases e with
  | answers => exact ⟨rfl, rfl, rfl, rfl⟩
  | flips => exact ⟨by simp, by simp, by simp, by simp⟩
  | rejects => exact ⟨by simp, by simp [State.reacked], by simp [State.reacked], by simp⟩
  | repeats => exact ⟨by simp, by simp [State.reacked], by simp [State.reacked], by simp⟩
  | accepts => exact ⟨by simp, by simp [State.accepted], by simp [State.accepted], by simp⟩
  | sends P => exact absurd (.inl ⟨P, rfl⟩) hi
  | violates P => exact absurd (.inl ⟨P, rfl⟩) hi
  | acks => exact absurd (.inr (.inl ⟨_, rfl⟩)) hi
  | rests => exact absurd (.inr (.inr (.inr (.inl rfl)))) hi
  | counts => exact absurd (.inr (.inr (.inr (.inl rfl)))) hi
  | expires => exact absurd (.inr (.inr (.inr (.inl rfl)))) hi
  | shuts => exact absurd rfl hi'
  | waits => exact absurd (.inr (.inr (.inl rfl))) hi
  | retransmits => exact absurd (.inr (.inr (.inl rfl))) hi

section TwoRuns

variable {s t t' : State} {rs : BitVec 1} {out : List Output} {stimuli : List Stimulus} {rnd : List Draws} {fresh : Nat}

/-- A SEND that is refused without ProtocolViolation leaves the sender half. -/
theorem senderAgree_of_refused_send {P : Bytes} (hrun : ¬ (within P.length s.maxPayload = true ∧ s.halt = false))
    (h : exec (.send P) s = .next t) : SenderAgree s t := by
  have e : Effect s (.send P) (.next t) := h ▸ exec_effect (.inl rfl) s
  cases e with
  | answers => exact ⟨rfl, rfl, rfl, rfl⟩
  | sends _ hlen hhalt => exact absurd ⟨hlen, hhalt⟩ hrun
  | violates _ hlen hhalt => exact absurd ⟨hlen, hhalt⟩ hrun

theorem send_twoRuns {P : Bytes} (h : exec (.send P) s = .next t)
    (h' : exec (.send P) (s.withRest rs out stimuli rnd fresh) = .next t') : SenderAgree t t' := by
  by_cases hrun : within P.length s.maxPayload = true ∧ s.halt = false
  · obtain ⟨hlen, hhalt⟩ := hrun
    cases hphase : s.ss.phase with
    | awaitingCall =>
      obtain rfl := next_unique h (exec_send_of_awaitingCall hlen hhalt hphase)
      obtain rfl := next_unique h' (exec_send_of_awaitingCall hlen hhalt hphase)
      rw [State.sent_eq, State.sent_eq]
      exact ⟨rfl, rfl, rfl, rfl⟩
    | awaitingAck =>
      obtain rfl := next_unique h (exec_send_of_awaitingAck hlen hhalt hphase)
      obtain rfl := next_unique h' (exec_send_of_awaitingAck hlen hhalt hphase)
      exact ⟨rfl, rfl, rfl, rfl⟩
  · have hsame : SenderAgree s (s.withRest rs out stimuli rnd fresh) := ⟨rfl, rfl, rfl, rfl⟩
    exact ((senderAgree_of_refused_send hrun h).symm.trans hsame).trans (senderAgree_of_refused_send hrun h')

/-- The guard of RXACK's accepting branch (45_sender.md R194). -/
def AcceptsAck (s : State) (F : Bytes) : Prop :=
  ∃ c P, F = enc (zext16 s.ss.bit) c P ∧ within F.length (maxFrame s.maxPayload) = true ∧ s.halt = false
    ∧ s.ss.phase = .awaitingAck ∧ pktOk s.k c P = true

theorem exec_rxack_of_accepts {F : Bytes} (h : AcceptsAck s F) : exec (.rxack F) s = .next s.acked := by
  obtain ⟨c, P, rfl, hlen, hhalt, hphase, hok⟩ := h
  exact exec_rxack_of_eq hlen hhalt hphase hok rfl

theorem senderAgree_of_refused_rxack {F : Bytes} (hrefused : ¬ AcceptsAck s F) (h : exec (.rxack F) s = .next t) :
    SenderAgree s t := by
  have e : Effect s (.rxack F) (.next t) := h ▸ exec_effect (.inl rfl) s
  cases e with
  | answers => exact ⟨rfl, rfl, rfl, rfl⟩
  | acks c P hlen hhalt hphase hok => exact absurd ⟨c, P, rfl, hlen, hhalt, hphase, hok⟩ hrefused

theorem rxack_twoRuns {F : Bytes} (h : exec (.rxack F) s = .next t)
    (h' : exec (.rxack F) (s.withRest rs out stimuli rnd fresh) = .next t') : SenderAgree t t' := by
  by_cases haccept : AcceptsAck s F
  · obtain rfl := next_unique h (exec_rxack_of_accepts haccept)
    obtain rfl := next_unique h' (exec_rxack_of_accepts (s := s.withRest rs out stimuli rnd fresh) haccept)
    exact ⟨rfl, rfl, rfl, rfl⟩
  · have hsame : SenderAgree s (s.withRest rs out stimuli rnd fresh) := ⟨rfl, rfl, rfl, rfl⟩
    exact ((senderAgree_of_refused_rxack haccept h).symm.trans hsame).trans
      (senderAgree_of_refused_rxack (s := s.withRest rs out stimuli rnd fresh) haccept h')

theorem tick_twoRuns (h : exec .tick s = .next t)
    (h' : exec .tick (s.withRest rs out stimuli rnd fresh) = .next t') : SenderAgree t t' := by
  by_cases hts : s.ts = .running
  · have hrun : s = s.withTimer .running s.cnt := hts ▸ s.withTimer_self.symm
    have hrest : s.withRest rs out stimuli rnd fresh
        = (s.withRest rs out stimuli rnd fresh).withTimer .running s.cnt := hts ▸ (State.withTimer_self _).symm
    rw [hrun] at h
    rw [hrest] at h'
    obtain rfl := next_unique h (exec_tick_of_running s s.cnt)
    obtain rfl := next_unique h' (exec_tick_of_running _ s.cnt)
    split
    next => exact ⟨rfl, rfl, rfl, rfl⟩
    next => exact ⟨rfl, rfl, rfl, rfl⟩
  · obtain rfl := next_unique h (exec_tick_of_ne_running hts)
    obtain rfl := next_unique h' (exec_tick_of_ne_running hts)
    exact ⟨rfl, rfl, rfl, rfl⟩

/-- What TMO emits may differ, the registers do not. -/
theorem tmo_twoRuns (h : exec .tmo s = .next t)
    (h' : exec .tmo (s.withRest rs out stimuli rnd fresh) = .next t') : SenderAgree t t' := by
  have e := exec_tmo_effect h
  have e' := exec_tmo_effect h'
  have hsame : tmoEnabled (s.withRest rs out stimuli rnd fresh) = tmoEnabled s := rfl
  cases e with
  | answers hi => simp [Responds, portOf] at hi
  | waits hoff =>
    obtain rfl := next_unique h' (exec_tmo_of_not_enabled (hsame.trans hoff))
    exact ⟨rfl, rfl, rfl, rfl⟩
  | retransmits F hon =>
    cases e' with
    | answers hi => simp [Responds, portOf] at hi
    | waits hoff => exact nomatch hon.symm.trans (hsame.symm.trans hoff)
    | retransmits F' =>
      rw [State.retransmitted_eq, State.retransmitted_eq]
      exact ⟨rfl, rfl, rfl, rfl⟩

/-- Whatever `RS`, the history and the draws are, an operation leaves the same sender half, flags and parameters. -/
theorem exec_twoRuns {i : Instr} (h : exec i s = .next t)
    (h' : exec i (s.withRest rs out stimuli rnd fresh) = .next t') : SenderAgree t t' := by
  by_cases hi : IsSenderOp i
  · rcases hi with ⟨P, rfl⟩ | ⟨F, rfl⟩ | rfl | rfl | ⟨d, rfl⟩ | rfl
    · exact send_twoRuns h h'
    · exact rxack_twoRuns h h'
    · exact tmo_twoRuns h h'
    · exact tick_twoRuns h h'
    · cases h; cases h'; exact ⟨rfl, rfl, rfl, rfl⟩
    · cases h; cases h'; exact ⟨rfl, rfl, rfl, rfl⟩
  · rcases instr_cases i with hport | ⟨d, rfl⟩ | rfl | ⟨p, F, rfl⟩
    · by_cases hshut : i = .shutdown
      · subst hshut; cases h; cases h'; exact ⟨rfl, rfl, rfl, rfl⟩
      · have hsame : SenderAgree s (s.withRest rs out stimuli rnd fresh) := ⟨rfl, rfl, rfl, rfl⟩
        have hkeep : SenderAgree s t := Effect.senderAgree hi hshut (h ▸ exec_effect hport _)
        have hkeep' : SenderAgree (s.withRest rs out stimuli rnd fresh) t' :=
          Effect.senderAgree hi hshut (h' ▸ exec_effect hport _)
        exact (hkeep.symm.trans hsame).trans hkeep'
    · exact absurd (.inr (.inr (.inr (.inr (.inl ⟨d, rfl⟩))))) hi
    · exact absurd (.inr (.inr (.inr (.inr (.inr rfl))))) hi
    · obtain rfl := next_unique h (exec_chsend p F s)
      obtain rfl := next_unique h' (exec_chsend p F _)
      exact ⟨rfl, rfl, rfl, rfl⟩

end TwoRuns

/-! What the receiver half does is determined by `RS`, `HALT` and the parameters. -/

/-- The guard of RXPKT's accepting branch, for payload `P` (46_receiver.md R224). -/
def AcceptsPacket (s : State) (F P : Bytes) : Prop :=
  ∃ c, F = enc (zext16 s.rs) c P ∧ within F.length (maxFrame s.maxPayload) = true ∧ s.halt = false
    ∧ pktOk s.k c P = true

theorem AcceptsPacket.congr {s s' : State} {F P : Bytes} (h : AcceptsPacket s F P) (hrs : s'.rs = s.rs)
    (hhalt : s'.halt = s.halt) (hparams : s'.params = s.params) : AcceptsPacket s' F P := by
  obtain ⟨c, hF, hlen, hrun, hok⟩ := h
  exact ⟨c, by rwa [hrs], by rwa [State.maxPayload_congr hparams], hhalt.trans hrun, by rwa [State.k_congr hparams]⟩

theorem AcceptsPacket.payload_unique {s : State} {F P Q : Bytes} (h : AcceptsPacket s F P) (h' : AcceptsPacket s F Q) :
    P = Q := by
  obtain ⟨c, rfl, -⟩ := h
  obtain ⟨c', hF, -⟩ := h'
  have hdec := (dec_enc _ _ _).symm.trans (hF ▸ dec_enc _ _ _)
  simp only [Option.some.injEq, Prod.mk.injEq] at hdec
  exact hdec.2.2.symm

theorem exec_rxpkt_delivery {F : Bytes} {s t : State} (h : exec (.rxpkt F) s = .next t) :
    (∃ P, AcceptsPacket s F P ∧ t.rs = ~~~s.rs ∧ deliveries t.out = deliveries s.out ++ [P])
    ∨ ((∀ P, ¬ AcceptsPacket s F P) ∧ t.rs = s.rs ∧ deliveries t.out = deliveries s.out) := by
  by_cases haccept : ∃ P, AcceptsPacket s F P
  · obtain ⟨P, haccept⟩ := haccept
    obtain ⟨c, rfl, hlen, hhalt, hok⟩ := id haccept
    obtain rfl := next_unique h (exec_rxpkt_of_eq hlen hhalt hok rfl)
    exact .inl ⟨P, haccept, rfl, by simp [State.accepted_out]⟩
  · have hrefused : ∀ P, ¬ AcceptsPacket s F P := fun P hP => haccept ⟨P, hP⟩
    have e : Effect s (.rxpkt F) (.next t) := h ▸ exec_effect (.inl rfl) s
    cases e with
    | answers => exact .inr ⟨hrefused, rfl, by simp⟩
    | rejects => exact .inr ⟨hrefused, by simp [State.reacked], by simp [State.reacked_out]⟩
    | repeats => exact .inr ⟨hrefused, by simp [State.reacked], by simp [State.reacked_out]⟩
    | accepts c P hlen hhalt hok => exact absurd ⟨c, rfl, hlen, hhalt, hok⟩ (hrefused P)

/-- Two runs of RXPKT from states that agree on what it reads end with the same `RS` and deliver the same. -/
theorem exec_rxpkt_twoRuns {F : Bytes} {s s' t t' : State} (h : exec (.rxpkt F) s = .next t)
    (h' : exec (.rxpkt F) s' = .next t') (hrs : s'.rs = s.rs) (hhalt : s'.halt = s.halt) (hparams : s'.params = s.params) :
    t'.rs = t.rs ∧ ∃ Ps, deliveries t.out = deliveries s.out ++ Ps ∧ deliveries t'.out = deliveries s'.out ++ Ps := by
  rcases exec_rxpkt_delivery h with ⟨P, haccept, hset, hdel⟩ | ⟨hrefused, hkeep, hdel⟩
  · rcases exec_rxpkt_delivery h' with ⟨Q, haccept', hset', hdel'⟩ | ⟨hrefused', -, -⟩
    · obtain rfl := haccept'.payload_unique (haccept.congr hrs hhalt hparams)
      exact ⟨by rw [hset', hset, hrs], [Q], hdel, hdel'⟩
    · exact absurd (haccept.congr hrs hhalt hparams) (hrefused' P)
  · rcases exec_rxpkt_delivery h' with ⟨Q, haccept', -, -⟩ | ⟨-, hkeep', hdel'⟩
    · exact absurd (haccept'.congr hrs.symm hhalt.symm hparams.symm) (hrefused Q)
    · exact ⟨by rw [hkeep', hkeep, hrs], [], by rw [hdel, List.append_nil], by rw [hdel', List.append_nil]⟩

/-- Every operation but RXPKT keeps `RS` and delivers nothing. -/
theorem exec_no_delivery {i : Instr} {s t : State} (hi : ∀ F, i ≠ .rxpkt F) (h : exec i s = .next t) :
    t.rs = s.rs ∧ deliveries t.out = deliveries s.out := by
  rcases instr_cases i with hport | ⟨d, rfl⟩ | rfl | ⟨p, F, rfl⟩
  · have e : Effect s i (.next t) := h ▸ exec_effect hport s
    rcases e.delivery with hkeep | ⟨c, P, hF, -⟩
    · exact hkeep
    · exact absurd hF (hi _)
  · cases h; exact ⟨rfl, rfl⟩
  · cases h; exact ⟨rfl, rfl⟩
  · obtain rfl := next_unique h (exec_chsend p F s)
    exact ⟨rfl, by simp⟩

/-- Settles O34: the draws are among what neither half's registers are computed from. -/
theorem drawsReachNoRegister : Obligations.DrawsReachNoRegister := by
  intro i s rnd' fresh' t t' h h'
  obtain ⟨hhalf, herr, hhalt, hparams⟩ : SenderAgree t t' :=
    exec_twoRuns (rs := s.rs) (out := s.out) (stimuli := s.stimuli) h h'
  have hreceiver : t'.rs = t.rs ∧ deliveries t'.out = deliveries t.out := by
    by_cases hi : ∃ F, i = .rxpkt F
    · obtain ⟨F, rfl⟩ := hi
      obtain ⟨hrs, Ps, hdel, hdel'⟩ := exec_rxpkt_twoRuns h h' rfl rfl rfl
      exact ⟨hrs, hdel'.trans hdel.symm⟩
    · have hi : ∀ F, i ≠ .rxpkt F := fun F hF => hi ⟨F, hF⟩
      obtain ⟨hrs, hdel⟩ := exec_no_delivery hi h
      obtain ⟨hrs', hdel'⟩ := exec_no_delivery hi h'
      exact ⟨hrs'.trans hrs.symm, hdel'.trans hdel.symm⟩
  obtain ⟨hrs, hdel⟩ := hreceiver
  exact ⟨by rw [protocolRegisters, protocolRegisters, hhalf, hrs, herr, hhalt], hparams.symm, hdel.symm⟩

theorem execAll_pair {i j : Instr} {s u : State} (h : execAll [i, j] s = .next u) :
    ∃ t, exec i s = .next t ∧ exec j t = .next u := by
  rw [execAll] at h
  split at h
  next t ht =>
    refine ⟨t, ht, ?_⟩
    rw [execAll] at h
    split at h
    next v hv => rw [hv]; exact h
    next => cases h
    next => cases h
  next => cases h
  next => cases h

/-- The sender's operations do not halt the session. -/
theorem halt_of_senderOp {i : Instr} (hi : IsSenderOp i) {s t : State} (h : exec i s = .next t) : t.halt = s.halt := by
  rcases instr_cases i with hport | ⟨d, rfl⟩ | rfl | ⟨p, F, rfl⟩
  · have e : Effect s i (.next t) := h ▸ exec_effect hport s
    rcases e.halt with hkeep | ⟨rfl, -⟩
    · exact hkeep
    · simp [IsSenderOp] at hi
  · cases h; rfl
  · cases h; rfl
  · simp [IsSenderOp] at hi

/-- Settles O52: each of the two operations sees, in either order, the same of what it reads. -/
theorem senderAndReceiverStepsCommute : Obligations.SenderAndReceiverStepsCommute := by
  intro i F s u u' hi h h'
  have hi : IsSenderOp i := by
    rcases hi with hP | hG | hi | hi
    · exact .inl hP
    · exact .inr (.inl hG)
    · exact .inr (.inr (.inl hi))
    · exact .inr (.inr (.inr (.inl hi)))
  obtain ⟨t, hsend, hrecv⟩ := execAll_pair h
  obtain ⟨t', hrecv', hsend'⟩ := execAll_pair h'
  obtain ⟨hhalf, herr, hhalt⟩ := exec_rxpkt_frame hrecv
  obtain ⟨hhalf', herr', hhalt'⟩ := exec_rxpkt_frame hrecv'
  have hagree : SenderAgree s t' := ⟨hhalf', herr', hhalt', exec_keepsParams _ s t' hrecv'⟩
  rw [hagree.exists_withRest] at hsend'
  obtain ⟨hhalf'', herr'', hhalt'', -⟩ := exec_twoRuns hsend hsend'
  have hrs : t'.rs = u.rs :=
    (exec_rxpkt_twoRuns hrecv hrecv' (rs_of_senderOp hi hsend).symm (halt_of_senderOp hi hsend).symm
      (exec_keepsParams i s t hsend).symm).1
  have hrs' : u'.rs = u.rs := (rs_of_senderOp hi hsend').trans hrs
  simp only [protocolRegisters, Prod.mk.injEq]
  exact ⟨hhalf.trans hhalf''.symm, hrs'.symm, herr.trans herr''.symm, hhalt.trans hhalt''.symm⟩

end Sys2Proof.Machine
